-- ==== Sys2Proof/Word.lean ====
section
/-! DEFINITION. The word types of QRC: what the spec treats as bits (00_scope.md R7, R8; 20_memory.md R50). -/

namespace Sys2Proof

/-- A byte: an unsigned 8-bit value, and a GF(256) element (R7, R100). -/
abbrev Byte := BitVec 8

/-- The host port's 32-bit data word, and a command word (R50, R80). -/
abbrev Word := BitVec 32

/-- A 16-bit byte address of the host port (R50). -/
abbrev Addr := BitVec 16

/-- A module: one bit, 1 dark and 0 light (R7). -/
abbrev Module := BitVec 1

end Sys2Proof
end

