-- ==== Sys2Proof/Config.lean ====
section
/-! DEFINITION. The fixed implementation parameters of QRC (00_scope.md R6). The spec leaves no value open, so there
is no free value here. -/

namespace Sys2Proof.Config

/-- `SIZE`: the side of the symbol (R6). -/
@[simp] abbrev size : Nat := 21

/-- `NDATA`: data codewords (R6). -/
@[simp] abbrev nData : Nat := 19

/-- `NEC`: error-correction codewords (R6). -/
@[simp] abbrev nEc : Nat := 7

/-- `NCW`: all codewords (R6). -/
@[simp] abbrev nCw : Nat := 26

/-- `MAXLEN`: the longest accepted input (R6, R154). -/
@[simp] abbrev maxLen : Nat := 17

/-- `POLY`: the field polynomial x⁸+x⁴+x³+x²+1 (R6, R100). -/
@[simp] abbrev poly : Nat := 0x11D

/-- `MODE`: the byte-mode indicator, four bits (R6, R150). -/
@[simp] abbrev mode : BitVec 4 := 0b0100

/-- `PAD0`: the pad byte at even pad positions (R6). -/
@[simp] abbrev pad0 : Byte := 0xEC

/-- `PAD1`: the pad byte at odd pad positions (R6). -/
@[simp] abbrev pad1 : Byte := 0x11

/-- `DARK`: row and column of the dark module (R6, R206). -/
@[simp] abbrev dark : Nat × Nat := (13, 8)

end Sys2Proof.Config
end

