-- ==== Sys2Proof/Syntax.lean ====
section
/-! DEFINITION. The commands of QRC: one constructor per row of the opcode map (30_encoding.md R82). Operands are
the 8-bit unsigned immediates `A` and `B`, used as they stand (R81). -/

namespace Sys2Proof

/-- A command with its operands (R82, R85). -/
inductive Instr where
  /-- `GF.ADD A, B` (R106). -/
  | gfAdd (a b : Byte)
  /-- `GF.SUB A, B` (R107). -/
  | gfSub (a b : Byte)
  /-- `GF.MUL A, B` (R108). -/
  | gfMul (a b : Byte)
  /-- `GF.DIV A, B` (R109). -/
  | gfDiv (a b : Byte)
  /-- `GF.EXP A` (R110). -/
  | gfExp (a : Byte)
  /-- `GF.LOG A` (R111). -/
  | gfLog (a : Byte)
  /-- `RS.ENC N, E`: `n` data codewords, `e` EC codewords (R133). -/
  | rsEnc (n e : Byte)
  /-- `BS.PACK` (R153). -/
  | bsPack
  /-- `MX.SEED` (R179). -/
  | mxSeed
  /-- `MX.PLACE` (R181). -/
  | mxPlace
  /-- `MK.MASK0` (R201). -/
  | mkMask0
  /-- `FW.WRITE` (R207). -/
  | fwWrite
  /-- `RUN` (R220). -/
  | run
deriving DecidableEq, Repr

end Sys2Proof
end

