-- ==== Sys2Proof/WellFormed.lean ====
section
/-! DEFINITION. Well-formed command statements (30_encoding.md R86). The type `Instr` holds bytes only, so every
`Instr` is a legal command (a value a command does not accept is a fault of its own rule, R83). What can be ill-formed
is the assembler's command statement: a mnemonic with a list of numbers. The assembler refuses it exactly when it does
not give the operands its row uses, or an operand is outside 0..255. -/

namespace Sys2Proof

/-- The mnemonics of R82. -/
inductive Mnemonic where
  | gfAdd | gfSub | gfMul | gfDiv | gfExp | gfLog | rsEnc
  | bsPack | mxSeed | mxPlace | mkMask0 | fwWrite | run
deriving DecidableEq, Repr

/-- How many operands a statement of this mnemonic gives (R82 "uses", R86). -/
def Mnemonic.arity : Mnemonic → Nat
  | .gfAdd => 2 | .gfSub => 2 | .gfMul => 2 | .gfDiv => 2
  | .gfExp => 1 | .gfLog => 1 | .rsEnc => 2
  | .bsPack => 0 | .mxSeed => 0 | .mxPlace => 0 | .mkMask0 => 0 | .fwWrite => 0 | .run => 0

/-- A command statement of the host-script syntax (R86). -/
structure CommandStatement where
  /-- The mnemonic the statement begins with. -/
  mnemonic : Mnemonic
  /-- The numbers after it, in order. -/
  operands : List Nat
deriving DecidableEq, Repr

/-- First check of R86: exactly the operands the row of R82 uses. -/
def CommandStatement.arityOk (c : CommandStatement) : Bool :=
  c.operands.length == c.mnemonic.arity

/-- Second check of R86: each operand is in 0..255. -/
def CommandStatement.rangeOk (c : CommandStatement) : Bool :=
  c.operands.all (fun v => decide (v ≤ 255))

/-- The statement is one an assembler accepts (R86). -/
def CommandStatement.wf (c : CommandStatement) : Bool :=
  c.arityOk && c.rangeOk

/-- The mnemonic of a command (R82). -/
def Instr.mnemonic : Instr → Mnemonic
  | .gfAdd _ _ => .gfAdd
  | .gfSub _ _ => .gfSub
  | .gfMul _ _ => .gfMul
  | .gfDiv _ _ => .gfDiv
  | .gfExp _ => .gfExp
  | .gfLog _ => .gfLog
  | .rsEnc _ _ => .rsEnc
  | .bsPack => .bsPack
  | .mxSeed => .mxSeed
  | .mxPlace => .mxPlace
  | .mkMask0 => .mkMask0
  | .fwWrite => .fwWrite
  | .run => .run

end Sys2Proof
end

