-- ==== Sys2Proof/Decode.lean ====
section
/-! DEFINITION. The command word: fields, decoder and encoder (30_encoding.md R80 to R85), and the assembler of
command statements (R86). -/

namespace Sys2Proof

/-- `OP`, bits 31..24 (R80). -/
def fieldOp (w : Word) : Byte := w.extractLsb' 24 8

/-- `RSV`, bits 23..16 (R80). -/
def fieldRsv (w : Word) : Byte := w.extractLsb' 16 8

/-- `A`, bits 15..8 (R80). -/
def fieldA (w : Word) : Byte := w.extractLsb' 8 8

/-- `B`, bits 7..0 (R80). -/
def fieldB (w : Word) : Byte := w.extractLsb' 0 8

/-- Why a word is `Illegal` (R84). All three raise the same fault; the names are for the reader. -/
inductive Illegal where
  /-- `RSV` ≠ 0. -/
  | reservedField
  /-- `OP` is not in the map of R82. -/
  | unknownOpcode
  /-- An operand field the command does not use is not 0. -/
  | unusedOperand
deriving DecidableEq, Repr

/-- A command that uses only `A`: `B` must be 0 (R85). -/
def oneOperand (b : Byte) (i : Instr) : Except Illegal Instr :=
  if b = 0 then .ok i else .error .unusedOperand

/-- A command without operands: `A` and `B` must be 0 (R85). -/
def noOperand (a b : Byte) (i : Instr) : Except Illegal Instr :=
  if a = 0 ∧ b = 0 then .ok i else .error .unusedOperand

/-- The opcode map (R82), once `RSV` is known to be 0. -/
def decodeFields (op a b : Byte) : Except Illegal Instr :=
  if op = 0x10 then .ok (.gfAdd a b)
  else if op = 0x11 then .ok (.gfSub a b)
  else if op = 0x12 then .ok (.gfMul a b)
  else if op = 0x13 then .ok (.gfDiv a b)
  else if op = 0x14 then oneOperand b (.gfExp a)
  else if op = 0x15 then oneOperand b (.gfLog a)
  else if op = 0x20 then .ok (.rsEnc a b)
  else if op = 0x30 then noOperand a b .bsPack
  else if op = 0x40 then noOperand a b .mxSeed
  else if op = 0x41 then noOperand a b .mxPlace
  else if op = 0x50 then noOperand a b .mkMask0
  else if op = 0x51 then noOperand a b .fwWrite
  else if op = 0x60 then noOperand a b .run
  else .error .unknownOpcode

/-- `decode` (R85): total on every 32-bit word, and a function of the word alone. -/
def decode (w : Word) : Except Illegal Instr :=
  if fieldRsv w ≠ 0 then .error .reservedField
  else decodeFields (fieldOp w) (fieldA w) (fieldB w)

/-- The host's reading of an opcode-table word: one 32-bit command word, bits above `nbits` zero. -/
def decodeTableWord (nbits w : Nat) : Option Instr :=
  (decode (BitVec.ofNat 32 (w % 2 ^ min nbits 32))).toOption

/-- A command word from its fields: `OP` from bit 24 up, `RSV` = 0, `A` from bit 8 up, `B` from bit 0 up (R80). -/
def commandWord (op a b : Byte) : Word :=
  BitVec.ofNat 32 (op.toNat * 2 ^ 24 + a.toNat * 2 ^ 8 + b.toNat)

/-- The opcode of a mnemonic (R82). -/
def Mnemonic.opcode : Mnemonic → Byte
  | .gfAdd => 0x10 | .gfSub => 0x11 | .gfMul => 0x12 | .gfDiv => 0x13
  | .gfExp => 0x14 | .gfLog => 0x15 | .rsEnc => 0x20 | .bsPack => 0x30
  | .mxSeed => 0x40 | .mxPlace => 0x41 | .mkMask0 => 0x50 | .fwWrite => 0x51 | .run => 0x60

/-- The word of a command: unused fields are 0 (R82, R83). -/
def encode : Instr → Word
  | .gfAdd a b => commandWord 0x10 a b
  | .gfSub a b => commandWord 0x11 a b
  | .gfMul a b => commandWord 0x12 a b
  | .gfDiv a b => commandWord 0x13 a b
  | .gfExp a => commandWord 0x14 a 0
  | .gfLog a => commandWord 0x15 a 0
  | .rsEnc n e => commandWord 0x20 n e
  | .bsPack => commandWord 0x30 0 0
  | .mxSeed => commandWord 0x40 0 0
  | .mxPlace => commandWord 0x41 0 0
  | .mkMask0 => commandWord 0x50 0 0
  | .fwWrite => commandWord 0x51 0 0
  | .run => commandWord 0x60 0 0

/-- The assembler of command statements (R86): the word of a well-formed statement, and a refusal of any other. -/
def CommandStatement.assemble (c : CommandStatement) : Option Word :=
  if c.wf then
    some (commandWord c.mnemonic.opcode (BitVec.ofNat 8 (c.operands.getD 0 0)) (BitVec.ofNat 8 (c.operands.getD 1 0)))
  else none

end Sys2Proof
end

