-- ==== Sys2Proof/Machine/Buffer.lean ====
section
/-! DEFINITION. Entries of QRC's byte buffers and byte tables by index (00_scope.md R9, R11). An index a rule never
uses (outside the buffer) reads as 0 and writes nothing, so that the accessors are total. -/

namespace Sys2Proof.Machine

/-- `BUF[i]` (R9). -/
def bufGet {n : Nat} (v : Vector Byte n) (i : Nat) : Byte :=
  if h : i < n then v[i] else 0

/-- `BUF[i] <- x` (R9). -/
def bufPut {n : Nat} (v : Vector Byte n) (i : Nat) (x : Byte) : Vector Byte n :=
  if h : i < n then v.set i x h else v

/-- A 256-entry byte table in the spec's 16 × 16 layout: entry `i` = 16 × row + column (R102, R103). -/
abbrev Table := Vector (Vector Byte 16) 16

/-- `EXP[i]` or `LOG[i]` (R29, R30). -/
def tableGet (t : Table) (i : Nat) : Byte :=
  if h : i < 256 then bufGet (t[i / 16]'(by omega)) (i % 16) else 0

end Sys2Proof.Machine
end

