-- ==== Sys2Proof/Machine/Grid.lean ====
section
/-! DEFINITION. A 21 × 21 matrix of modules (10_state.md R28, R33). A row is held as the 21-bit number of the
spec's own row dumps: column 0 in bit 20, column 20 in bit 0 (00_scope.md R11). -/

namespace Sys2Proof.Machine

/-- One row of modules, column 0 in bit 20 (R11). -/
abbrev Row := BitVec 21

/-- The matrix, row 0 first (R9). -/
abbrev Grid := Vector Row 21

/-- Column `c` of a row. -/
def rowGet (row : Row) (c : Nat) : Module := row.extractLsb' (20 - c) 1

/-- A row with column `c` replaced. -/
def rowPut (row : Row) (c : Nat) (v : Module) : Row :=
  (row &&& ~~~(1#21 <<< (20 - c))) ||| (v.setWidth 21 <<< (20 - c))

/-- `GRID[r][c]` (R9). A pair outside the matrix is never read by a rule and reads as 0. -/
def gridGet (g : Grid) (r c : Nat) : Module :=
  if h : r < 21 ∧ c < 21 then rowGet (g[r]'h.1) c else 0

/-- `GRID[r][c] <- v` (R9). A pair outside the matrix is never written by a rule and writes nothing. -/
def gridPut (g : Grid) (r c : Nat) (v : Module) : Grid :=
  if h : r < 21 ∧ c < 21 then g.set r (rowPut (g[r]'h.1) c v) h.1 else g

/-- The matrix of all light modules. -/
def blankGrid : Grid := Vector.replicate 21 0

/-- The loop range `for r in 0 .. 20, c in 0 .. 20`, in row-major order. -/
def allModules : List (Nat × Nat) :=
  (List.range Config.size).flatMap (fun r => (List.range Config.size).map (fun c => (r, c)))

/-- The integer pair lies in the matrix (R175, bounds). -/
def inGrid (r c : Int) : Bool :=
  decide (0 ≤ r ∧ r ≤ 20 ∧ 0 ≤ c ∧ c ≤ 20)

/-- `GRID[r][c] <- v` at an integer pair, as the placer's cursor gives it (R180). -/
def gridPutInt (g : Grid) (r c : Int) (v : Module) : Grid :=
  if inGrid r c then gridPut g r.toNat c.toNat v else g

/-- The encoding-region predicate read from the structural-mask ROM, false outside the grid (R33, R175, R180). -/
def regionOf (smask : Grid) (r c : Int) : Bool :=
  inGrid r c && gridGet smask r.toNat c.toNat == 0

end Sys2Proof.Machine
end

