-- ==== Sys2Proof/Machine/State.lean ====
section
/-! DEFINITION. The state of QRC (10_state.md R20), the host's pending inputs, and the reasons a step can stop. -/

namespace Sys2Proof.Machine

/-- What the outside world does to QRC (20_memory.md R50): one access of the host port, or the reset input. -/
inductive HostEvent where
  /-- `MemRead(addr, size)`; only size 4 completes (R51, R56). -/
  | read (addr : Addr) (size : Nat)
  /-- `MemWrite(addr, size, value)`; only size 4 completes (R51, R56). -/
  | write (addr : Addr) (size : Nat) (value : Word)
  /-- The reset input, asserted and released (R260). -/
  | reset
deriving DecidableEq, Repr

/-- Why a host access stops the run. -/
inductive Fault where
  /-- A bus error (R56), raised by a host read or write that is unmapped, misaligned, not 4 bytes, or in a direction
  the map does not give. Safe: the spec itself says that the host's run stops there as a fault. -/
  | busError
deriving DecidableEq, Repr

/-- Why an instruction has no meaning. -/
inductive Refusal where
  /-- Raised by an arm of `exec` that has no meaning yet; no arm of this model does. Safe: nothing is claimed of it. -/
  | notModelled (mnemonic : String)
deriving DecidableEq, Repr

/-- The state of QRC: one field per line of R20, the five ROM lines in `Rom`; and two fields of the model's own, the
host's pending inputs and the value the last access returned. -/
structure State extends Rom where
  /-- `LEN`, 8 bits (R21). -/
  len : Byte
  /-- `RES`, 8 bits (R22). -/
  res : Byte
  /-- `FAULT`, a 4-bit code (R23). -/
  fault : BitVec 4
  /-- `FCMD`, 32 bits (R24). -/
  fcmd : Word
  /-- `IBUF[0..16]` (R26). -/
  ibuf : Vector Byte 17
  /-- `CW[0..25]` (R27). -/
  cw : Vector Byte 26
  /-- `GRID[0..20][0..20]` (R28). -/
  grid : Grid
  /-- The model's own: the host's inputs not yet served, next first (R50). DESIGN CHOICE, log entry 2. -/
  inputs : List HostEvent
  /-- The model's own: the value the last served access returned to the host, if it was a read (R50, R54).
  DESIGN CHOICE, log entry 3. -/
  rdata : Option Word
deriving DecidableEq, Repr

/-- The state after reset (R261), with no host input pending and nothing returned yet. -/
def State.reset : State :=
  { Rom.fixed with
    len := 0, res := 0, fault := 0, fcmd := 0,
    ibuf := Vector.replicate 17 0, cw := Vector.replicate 26 0, grid := blankGrid,
    inputs := [], rdata := none }

end Sys2Proof.Machine
end

