-- ==== Sys2Proof/Machine/Flags.lean ====
section
/-! DEFINITION. The only condition state of QRC: `FAULT` (10_state.md R23, R36). There are no flags or condition
codes. -/

namespace Sys2Proof.Machine

/-- The command faults of R231. -/
inductive FaultCode where
  | illegalCommand | divisionByZero | rsEmptyData | rsZeroEc | rsBadEcCount | rsRange | inputTooLong
deriving DecidableEq, Repr

/-- The code a fault stores in `FAULT` (R231). -/
def FaultCode.code : FaultCode → BitVec 4
  | .illegalCommand => 1
  | .divisionByZero => 2
  | .rsEmptyData => 3
  | .rsZeroEc => 4
  | .rsBadEcCount => 5
  | .rsRange => 6
  | .inputTooLong => 7

/-- A fault has been raised since reset, so every command is refused (R23, R233). -/
def State.faulted (s : State) : Bool := s.fault != 0

end Sys2Proof.Machine
end

