-- ==== Sys2Proof/Machine/Operands.lean ====
section
/-! DEFINITION. The operand forms of a command (30_encoding.md R81): 8-bit unsigned immediates, used as they stand.
No operand is sign-extended, scaled or shifted, and none names a register; `LEN` is the one register read implicitly. -/

namespace Sys2Proof.Machine

/-- A GF operand: the field element with that byte value (R81, R100). -/
def operandElement (x : Byte) : Byte := x

/-- A table index or a count: the integer 0..255, zero-extended (R81). -/
def operandNat (x : Byte) : Nat := x.toNat

/-- The implicit operand of `BS.PACK` and `RUN`: the input length (R81, R153, R220). -/
def implicitLen (s : State) : Nat := s.len.toNat

end Sys2Proof.Machine
end

