-- ==== Sys2Proof/Machine/Ops.lean ====
section
/-! DEFINITION. The operations the commands share: writing a register or a buffer, running a command unless the unit
is faulted (60_exceptions.md R230, R233), and taking a fault (R232). There is no return from a fault: only reset clears
`FAULT` (R234), and `resetBy` is that reset. -/

namespace Sys2Proof.Machine

/-- What a step answers. -/
abbrev Answer := Host.Outcome State Fault Refusal

/-- `RES <- v` (R22). -/
def State.setRes (s : State) (v : Byte) : State := { s with res := v }

/-- `LEN <- v` (R21). -/
def State.setLen (s : State) (v : Byte) : State := { s with len := v }

/-- The whole of `IBUF` replaced (R26). -/
def State.setIbuf (s : State) (v : Vector Byte 17) : State := { s with ibuf := v }

/-- The whole of `CW` replaced (R27). -/
def State.setCw (s : State) (v : Vector Byte 26) : State := { s with cw := v }

/-- The whole of `GRID` replaced (R28). -/
def State.setGrid (s : State) (g : Grid) : State := { s with grid := g }

/-- `raise Fault(code)` while `w` is the current command word (R232): `FAULT` and `FCMD`, and nothing else. -/
def State.raise (s : State) (c : FaultCode) (w : Word) : State := { s with fault := c.code, fcmd := w }

/-- One host event taken from the pending inputs; the last access's value is no longer offered. -/
def State.take (s : State) (rest : List HostEvent) : State := { s with inputs := rest, rdata := none }

/-- A read returns `v` to the host (R54). -/
def State.returns (s : State) (v : Word) : State := { s with rdata := some v }

/-- A command runs only while `FAULT` is 0; otherwise it is accepted and has no effect (R230, R233). Either way it
completes. -/
def command (s effect : State) : Answer :=
  if s.faulted then .next s else .next effect

/-- Reset (R260, R261): every register and RAM at its reset value; ROM is not touched. What the host does after it is
still pending. -/
def State.resetBy (s : State) : State :=
  { State.reset with toRom := s.toRom, inputs := s.inputs }

end Sys2Proof.Machine
end

