-- ==== Sys2Proof/Machine/Gf.lean ====
section
/-! DEFINITION. The GF(256) multiplier and logarithm-table unit (40_gf.md R105 to R111). -/

namespace Sys2Proof.Machine

/-- `gf_add` (R105). -/
def gfAdd (a b : Byte) : Byte := a ^^^ b

/-- `gf_sub` (R105): the same as addition in characteristic 2. -/
def gfSub (a b : Byte) : Byte := gfAdd a b

/-- `gf_mul` (R105): zero operands are special-cased and never read `LOG`. -/
def gfMul (rom : Rom) (a b : Byte) : Byte :=
  if a = 0 ∨ b = 0 then 0
  else tableGet rom.exp (((tableGet rom.log a.toNat).toNat + (tableGet rom.log b.toNat).toNat) % 255)

/-- `gf_div` (R105): division by zero is a failure, not a value, whatever the dividend. -/
def gfDiv (rom : Rom) (a b : Byte) : Option Byte :=
  if b = 0 then none
  else if a = 0 then some 0
  else some (tableGet rom.exp (((tableGet rom.log a.toNat).toNat + 255 - (tableGet rom.log b.toNat).toNat) % 255))

/-- `GF.ADD` (R106). -/
def execGfAdd (a b : Byte) (s : State) : Answer :=
  command s (s.setRes (gfAdd (operandElement a) (operandElement b)))

/-- `GF.SUB` (R107). -/
def execGfSub (a b : Byte) (s : State) : Answer :=
  command s (s.setRes (gfSub (operandElement a) (operandElement b)))

/-- `GF.MUL` (R108). -/
def execGfMul (a b : Byte) (s : State) : Answer :=
  command s (s.setRes (gfMul s.toRom (operandElement a) (operandElement b)))

/-- `GF.DIV` (R109): a zero divisor raises DivisionByZero and leaves `RES`. -/
def execGfDiv (a b : Byte) (s : State) : Answer :=
  command s <|
    match gfDiv s.toRom (operandElement a) (operandElement b) with
    | none => s.raise .divisionByZero (encode (.gfDiv a b))
    | some q => s.setRes q

/-- `GF.EXP` (R110). -/
def execGfExp (a : Byte) (s : State) : Answer :=
  command s (s.setRes (tableGet s.exp (operandNat a)))

/-- `GF.LOG` (R111): the table entry as stored, `LOG[0]` = 0 included. -/
def execGfLog (a : Byte) (s : State) : Answer :=
  command s (s.setRes (tableGet s.log (operandNat a)))

end Sys2Proof.Machine
end

