-- ==== Sys2Proof/Machine/Bitstream.lean ====
section
/-! DEFINITION. The bit-stream packer (42_bitstream.md R151, R153, R154). -/

namespace Sys2Proof.Machine

/-- `out[0]` and `out[1]` of R151: mode indicator and character count, over a zeroed buffer. -/
def packHeader (len : Byte) : Vector Byte 19 :=
  bufPut (bufPut (Vector.replicate 19 0) 0 ((Config.mode.setWidth 8 <<< 4) ||| (len >>> 4))) 1 (len <<< 4)

/-- One turn of the payload loop of R151 on the output buffer and the write cursor. -/
def packChar (oc : Vector Byte 19 × Nat) (ch : Byte) : Vector Byte 19 × Nat :=
  (bufPut (bufPut oc.1 oc.2 (bufGet oc.1 oc.2 ||| (ch >>> 4))) (oc.2 + 1) (ch <<< 4), oc.2 + 1)

/-- The payload loop of R151 over `S[0..len-1]`, the cursor starting at 1. -/
def packPayload (out : Vector Byte 19) (ibuf : Vector Byte 17) (len : Nat) : Vector Byte 19 :=
  ((List.range len).foldl (fun oc i => packChar oc (bufGet ibuf i)) (out, 1)).1

/-- The pad loop of R151 from index `len + 2` to 18 (90_conflicts.md C1). -/
def packPads (out : Vector Byte 19) (len : Nat) : Vector Byte 19 :=
  (List.range (Config.maxLen - len)).foldl
    (fun out k => bufPut out (len + 2 + k) (if k % 2 = 0 then Config.pad0 else Config.pad1)) out

/-- `pack(L, S)` (R151), for L up to 17. -/
def pack (len : Byte) (ibuf : Vector Byte 17) : Vector Byte 19 :=
  packPads (packPayload (packHeader len) ibuf len.toNat) len.toNat

/-- `for k in 0 .. 18: CW[k] <- out[k]` (R153). -/
def cwPutData (cw : Vector Byte 26) (out : Vector Byte 19) : Vector Byte 26 :=
  (List.range Config.nData).foldl (fun cw k => bufPut cw k (bufGet out k)) cw

/-- The body of `BS.PACK` once `LEN` has passed the check (R153). -/
def packBody (s : State) : State :=
  s.setCw (cwPutData s.cw (pack s.len s.ibuf))

/-- `BS.PACK` (R153): the capacity check comes before any write (R154). -/
def execBsPack (s : State) : Answer :=
  command s <|
    if implicitLen s > Config.maxLen then s.raise .inputTooLong (encode .bsPack) else packBody s

end Sys2Proof.Machine
end

