-- ==== Sys2Proof/Machine/MaskFormat.lean ====
section
/-! DEFINITION. The XOR masker and the format-information writer (44_mask_format.md R200 to R207). -/

namespace Sys2Proof.Machine

/-- `MASK0(r, c)` (R200). -/
def mask0 (r c : Nat) : Bool := (r + c) % 2 == 0

/-- One module of the masker's loop (R201). -/
def maskModule (smask : Grid) (g : Grid) (rc : Nat × Nat) : Grid :=
  if regionOf smask rc.1 rc.2 && mask0 rc.1 rc.2 then
    gridPut g rc.1 rc.2 (gridGet g rc.1 rc.2 ^^^ 1)
  else g

/-- The body of `MK.MASK0` (R201). -/
def maskBody (s : State) : State := s.setGrid (allModules.foldl (maskModule s.smask) s.grid)

/-- `MK.MASK0` (R201). -/
def execMkMask0 (s : State) : Answer := command s (maskBody s)

/-- The first format path, in the order of R203. -/
def formatPath1 : List (Nat × Nat) :=
  [(0, 8), (1, 8), (2, 8), (3, 8), (4, 8), (5, 8), (7, 8), (8, 8),
   (8, 7), (8, 5), (8, 4), (8, 3), (8, 2), (8, 1), (8, 0)]

/-- The second format path, in the order of R204. -/
def formatPath2 : List (Nat × Nat) :=
  [(8, 20), (8, 19), (8, 18), (8, 17), (8, 16), (8, 15), (8, 14), (8, 13),
   (14, 8), (15, 8), (16, 8), (17, 8), (18, 8), (19, 8), (20, 8)]

/-- The module numbered `k` on a path receives bit `k` of `FMTW`, bit 0 the least significant (R205). -/
def writePath (fmtw : BitVec 15) (path : List (Nat × Nat)) (g : Grid) : Grid :=
  path.zipIdx.foldl (fun g pk => gridPut g pk.1.1 pk.1.2 (fmtw.extractLsb' pk.2 1)) g

/-- Path 1, path 2, then the dark module (R207). -/
def formatGrid (fmtw : BitVec 15) (g : Grid) : Grid :=
  gridPut (writePath fmtw formatPath2 (writePath fmtw formatPath1 g)) Config.dark.1 Config.dark.2 1

/-- The body of `FW.WRITE` (R207). -/
def formatBody (s : State) : State := s.setGrid (formatGrid s.fmtw s.grid)

/-- `FW.WRITE` (R207). -/
def execFwWrite (s : State) : Answer := command s (formatBody s)

end Sys2Proof.Machine
end

