-- ==== Sys2Proof/Machine/Matrix.lean ====
section
/-! DEFINITION. The matrix placer: seeding and zigzag placement (43_matrix.md R171 to R181). -/

namespace Sys2Proof.Machine

/-- `FINDER(i, j)` (R171). -/
def finder (i j : Nat) : Module :=
  if i = 0 ∨ i = 6 ∨ j = 0 ∨ j = 6 then 1
  else if 2 ≤ i ∧ i ≤ 4 ∧ 2 ≤ j ∧ j ≤ 4 then 1
  else 0

/-- The top-left corners of the three finder patterns (R171). -/
def finderCorners : List (Nat × Nat) := [(0, 0), (0, 14), (14, 0)]

/-- One finder pattern with its top-left corner at `(r0, c0)` (R171, R179). -/
def drawFinder (g : Grid) (corner : Nat × Nat) : Grid :=
  (List.range 7).foldl (fun g i =>
    (List.range 7).foldl (fun g j => gridPut g (corner.1 + i) (corner.2 + j) (finder i j)) g) g

/-- The value of the timing module at index `t`: dark when even (R173). -/
def timingModule (t : Nat) : Module := if t % 2 = 0 then 1 else 0

/-- Both timing lines at index `t` (R179). -/
def drawTimingAt (g : Grid) (t : Nat) : Grid :=
  gridPut (gridPut g 6 t (timingModule t)) t 6 (timingModule t)

/-- The grid `MX.SEED` leaves: cleared, then the three finder patterns, then the timing lines (R179). -/
def seedGrid : Grid :=
  [8, 9, 10, 11, 12].foldl drawTimingAt (finderCorners.foldl drawFinder blankGrid)

/-- The body of `MX.SEED` (R179). -/
def seedBody (s : State) : State := s.setGrid seedGrid

/-- `MX.SEED` (R179). -/
def execMxSeed (s : State) : Answer := command s (seedBody s)

/-- The placer's cursor: row, right column of the column pair, and direction (R180). Local to one command (R34). -/
structure Cursor where
  row : Int
  col : Int
  dir : Int
deriving DecidableEq, Repr

/-- The first cursor of R180. -/
def cursorStart : Cursor := { row := 20, col := 20, dir := -1 }

/-- After each bit pair: one row on, and once more over the horizontal timing row (R180). -/
def Cursor.advance (c : Cursor) : Cursor :=
  let row := c.row + c.dir
  { c with row := if row = 6 then row + c.dir else row }

/-- `while not ER(row, col): row <- row + dir` (R180). At most 9 turns occur at any repositioning of the fixed mask
(R183); `fuel` bounds the loop for the sake of totality (log entry 10). -/
def seekRegion (smask : Grid) (col dir : Int) : Nat → Int → Int
  | 0, row => row
  | fuel + 1, row => if regionOf smask row col then row else seekRegion smask col dir fuel (row + dir)

/-- Reverse, move two columns to the left, one more over the vertical timing column, and seek the region (R180). -/
def Cursor.reposition (smask : Grid) (c : Cursor) : Cursor :=
  let dir := -c.dir
  let col := if c.col - 2 = 6 then c.col - 3 else c.col - 2
  { row := seekRegion smask col dir 21 c.row, col := col, dir := dir }

/-- The bits `j` = 0..3 of one byte at the cursor: bit 7 − 2j right, bit 6 − 2j left (R58, R180). -/
def placePair (byte : Byte) (cg : Cursor × Grid) (j : Nat) : Cursor × Grid :=
  (cg.1.advance,
    gridPutInt (gridPutInt cg.2 cg.1.row cg.1.col (byte.extractLsb' (7 - 2 * j) 1))
      cg.1.row (cg.1.col - 1) (byte.extractLsb' (6 - 2 * j) 1))

/-- One byte: four pairs (R180). -/
def placeByte (byte : Byte) (cg : Cursor × Grid) : Cursor × Grid :=
  [0, 1, 2, 3].foldl (placePair byte) cg

/-- The repositioning between bytes only: none follows byte 25 (R180, 90_conflicts.md C5). -/
def betweenBytes (smask : Grid) (k : Nat) (c : Cursor) : Cursor :=
  if k < 25 ∧ regionOf smask c.row c.col = false then c.reposition smask else c

/-- Byte `k` of the traversal and the repositioning after it (R180). -/
def placeCodeword (smask : Grid) (cw : Vector Byte 26) (cg : Cursor × Grid) (k : Nat) : Cursor × Grid :=
  let done := placeByte (bufGet cw k) cg
  (betweenBytes smask k done.1, done.2)

/-- `place()` (R180): codewords in index order. -/
def place (smask : Grid) (cw : Vector Byte 26) (g : Grid) : Grid :=
  ((List.range Config.nCw).foldl (placeCodeword smask cw) (cursorStart, g)).2

/-- The body of `MX.PLACE` (R181). -/
def placeBody (s : State) : State := s.setGrid (place s.smask s.cw s.grid)

/-- `MX.PLACE` (R181). -/
def execMxPlace (s : State) : Answer := command s (placeBody s)

end Sys2Proof.Machine
end

