-- ==== Sys2Proof/Machine/Rs.lean ====
section
/-! DEFINITION. The Reed-Solomon remainder engine (41_rs.md R131 to R133). Index 0 of a buffer is the coefficient of
the highest power (R131). -/

namespace Sys2Proof.Machine

/-- The inner loop of R132 at position `i`: subtract `factor` times the generator, aligned at `i`. -/
def rsCancel (rom : Rom) (factor : Byte) (i : Nat) (w : List Byte) : List Byte :=
  (List.range 8).foldl
    (fun w j => w.set (i + j) (gfSub (w.getD (i + j) 0) (gfMul rom factor (bufGet rom.gen j)))) w

/-- One step of the division loop of R132: the factor is read once, before the inner loop changes `W[i]`. -/
def rsStep (rom : Rom) (w : List Byte) (i : Nat) : List Byte :=
  if w.getD i 0 = 0 then w else rsCancel rom (w.getD i 0) i w

/-- The working buffer after the division loop over `N` positions (R132). -/
def rsDivide (rom : Rom) (w : List Byte) (n : Nat) : List Byte :=
  (List.range n).foldl (rsStep rom) w

/-- `rs_remainder(D)` (R132): the last 7 bytes of the working buffer. -/
def rsRemainder (rom : Rom) (d : List Byte) : List Byte :=
  (rsDivide rom (d ++ List.replicate Config.nEc 0) d.length).drop d.length

/-- `CW[0], ..., CW[n-1]`. -/
def cwPrefix (cw : Vector Byte 26) (n : Nat) : List Byte :=
  (List.range n).map (bufGet cw)

/-- `for j in 0 .. 6: CW[n+j] <- r[j]` (R133). -/
def cwPutEc (cw : Vector Byte 26) (n : Nat) (r : List Byte) : Vector Byte 26 :=
  (List.range Config.nEc).foldl (fun cw j => bufPut cw (n + j) (r.getD j 0)) cw

/-- The body of `RS.ENC n, 7` once its checks have passed (R133). -/
def rsBody (n : Nat) (s : State) : State :=
  s.setCw (cwPutEc s.cw n (rsRemainder s.toRom (cwPrefix s.cw n)))

/-- The checks of `RS.ENC` in the order of R133; the first that holds is the fault raised (R235). -/
def rsCheck (n e : Nat) : Option FaultCode :=
  if n = 0 then some .rsEmptyData
  else if e = 0 then some .rsZeroEc
  else if e ≠ Config.nEc then some .rsBadEcCount
  else if n > Config.nData then some .rsRange
  else none

/-- `RS.ENC N, E` (R133). -/
def execRsEnc (n e : Byte) (s : State) : Answer :=
  command s <|
    match rsCheck (operandNat n) (operandNat e) with
    | some c => s.raise c (encode (.rsEnc n e))
    | none => rsBody (operandNat n) s

end Sys2Proof.Machine
end

