-- ==== Sys2Proof/Machine/Pipeline.lean ====
section
/-! DEFINITION. The pipeline command (45_pipeline.md R220). -/

namespace Sys2Proof.Machine

/-- The six stage bodies in the order of R220, each seeing the writes of the stages before it. -/
def runBody (s : State) : State :=
  formatBody (maskBody (placeBody (rsBody Config.nData (packBody (seedBody s)))))

/-- `RUN` (R220): `LEN` is checked before any stage writes. -/
def execRun (s : State) : Answer :=
  command s <|
    if implicitLen s > Config.maxLen then s.raise .inputTooLong (encode .run) else runBody s

end Sys2Proof.Machine
end

