-- ==== Sys2Proof/Machine/Dispatch.lean ====
section
/-! DEFINITION. One arm per command (30_encoding.md R82). -/

namespace Sys2Proof.Machine

def exec (i : Instr) (s : State) : Host.Outcome State Fault Refusal :=
  match i with
  | .gfAdd a b => Sys2Proof.Machine.execGfAdd a b s
  | .gfSub a b => Sys2Proof.Machine.execGfSub a b s
  | .gfMul a b => Sys2Proof.Machine.execGfMul a b s
  | .gfDiv a b => Sys2Proof.Machine.execGfDiv a b s
  | .gfExp a => Sys2Proof.Machine.execGfExp a s
  | .gfLog a => Sys2Proof.Machine.execGfLog a s
  | .rsEnc n e => Sys2Proof.Machine.execRsEnc n e s
  | .bsPack => Sys2Proof.Machine.execBsPack s
  | .mxSeed => Sys2Proof.Machine.execMxSeed s
  | .mxPlace => Sys2Proof.Machine.execMxPlace s
  | .mkMask0 => Sys2Proof.Machine.execMkMask0 s
  | .fwWrite => Sys2Proof.Machine.execFwWrite s
  | .run => Sys2Proof.Machine.execRun s

end Sys2Proof.Machine
end

