-- ==== Sys2Proof/Machine/Map.lean ====
section
/-! DEFINITION. The host address map (20_memory.md R52, R53) and the reads and writes it allows (R54, R55). -/

namespace Sys2Proof.Machine

/-- What a mapped word holds (R52). -/
inductive Location where
  | cmd | fault | fcmd | res | len | fmtw
  | gen (j : Fin 8)
  | ibuf (i : Fin 17)
  | cw (k : Fin 26)
  | exp (i : Fin 256)
  | log (i : Fin 256)
  | grid (r c : Fin 21)
  | smask (r c : Fin 21)
deriving DecidableEq, Repr

/-- The row-major linear index of a module (R53). -/
def linearIndex (r c : Fin 21) : Nat := 21 * r.val + c.val

/-- The byte address of a location, as a number (R52, R53). -/
def Location.offset : Location → Nat
  | .cmd => 0x0000
  | .fault => 0x0004
  | .fcmd => 0x0008
  | .res => 0x000C
  | .len => 0x0010
  | .fmtw => 0x0014
  | .gen j => 0x0020 + 4 * j.val
  | .ibuf i => 0x0040 + 4 * i.val
  | .cw k => 0x0100 + 4 * k.val
  | .exp i => 0x0400 + 4 * i.val
  | .log i => 0x0800 + 4 * i.val
  | .grid r c => 0x1000 + 4 * linearIndex r c
  | .smask r c => 0x2000 + 4 * linearIndex r c

/-- The byte address of a location (R52). -/
def Location.addr (l : Location) : Addr := BitVec.ofNat 16 l.offset

/-- The entry of a run of `count` words from byte address `base` that byte address `n` names, if any. -/
def entryAt (base count n : Nat) : Option (Fin count) :=
  if h : base ≤ n ∧ n < base + 4 * count then some ⟨(n - base) / 4, by omega⟩ else none

/-- Row and column of a linear index: `n div 21` and `n mod 21` (R52, R53). -/
def modulePair (n : Fin 441) : Fin 21 × Fin 21 := (⟨n.val / 21, by omega⟩, ⟨n.val % 21, by omega⟩)

/-- The location at a byte address that is a multiple of 4 (R52). -/
def locateWord (n : Nat) : Option Location :=
  if n = 0x0000 then some .cmd
  else if n = 0x0004 then some .fault
  else if n = 0x0008 then some .fcmd
  else if n = 0x000C then some .res
  else if n = 0x0010 then some .len
  else if n = 0x0014 then some .fmtw
  else (entryAt 0x0020 8 n).map .gen
    <|> (entryAt 0x0040 17 n).map .ibuf
    <|> (entryAt 0x0100 26 n).map .cw
    <|> (entryAt 0x0400 256 n).map .exp
    <|> (entryAt 0x0800 256 n).map .log
    <|> (entryAt 0x1000 441 n).map (fun n => .grid (modulePair n).1 (modulePair n).2)
    <|> (entryAt 0x2000 441 n).map (fun n => .smask (modulePair n).1 (modulePair n).2)

/-- The location an access names: none when it is misaligned, not 4 bytes, or unmapped (R51, R52, R56, R59). -/
def locate (a : Addr) (size : Nat) : Option Location :=
  if size = 4 ∧ a.toNat % 4 = 0 then locateWord a.toNat else none

/-- A readable location's stored value, zero-extended (R52, R54); `CMD` cannot be read (R25). -/
def State.load (s : State) : Location → Option Word
  | .cmd => none
  | .fault => some (s.fault.setWidth 32)
  | .fcmd => some s.fcmd
  | .res => some (s.res.setWidth 32)
  | .len => some (s.len.setWidth 32)
  | .fmtw => some (s.fmtw.setWidth 32)
  | .gen j => some ((bufGet s.gen j).setWidth 32)
  | .ibuf i => some ((bufGet s.ibuf i).setWidth 32)
  | .cw k => some ((bufGet s.cw k).setWidth 32)
  | .exp i => some ((tableGet s.exp i).setWidth 32)
  | .log i => some ((tableGet s.log i).setWidth 32)
  | .grid r c => some ((gridGet s.grid r c).setWidth 32)
  | .smask r c => some ((gridGet s.smask r c).setWidth 32)

/-- A write to a storage location keeps the stored bits of R52 and ignores the others (R55); the locations that store
nothing for the host give none (`CMD` executes instead). -/
def State.store (s : State) (v : Word) : Location → Option State
  | .cmd => none
  | .fault => none
  | .fcmd => none
  | .res => none
  | .len => some (s.setLen (v.setWidth 8))
  | .fmtw => none
  | .gen _ => none
  | .ibuf i => some (s.setIbuf (bufPut s.ibuf i (v.setWidth 8)))
  | .cw k => some (s.setCw (bufPut s.cw k (v.setWidth 8)))
  | .exp _ => none
  | .log _ => none
  | .grid r c => some (s.setGrid (gridPut s.grid r c (v.setWidth 1)))
  | .smask _ _ => none

end Sys2Proof.Machine
end

