-- ==== Sys2Proof/Machine/Port.lean ====
section
/-! DEFINITION. The host port: one access at a time, each complete before the next (20_memory.md R50, R60). -/

namespace Sys2Proof.Machine

/-- A write of `w` to `CMD` (R25, R230): refused while faulted, without decoding (R233); else decoded, and an illegal
word raises IllegalCommand (R84). -/
def execWord (w : Word) (s : State) : Answer :=
  if s.faulted then .next s
  else match decode w with
    | .error _ => .next (s.raise .illegalCommand w)
    | .ok i => exec i s

/-- `MemRead` (R50, R54): a bus error where the map gives no readable location (R56). -/
def memRead (s : State) (a : Addr) (size : Nat) : Option Word :=
  (locate a size).bind s.load

/-- A read access. -/
def serveRead (a : Addr) (size : Nat) (s : State) : Answer :=
  match memRead s a size with
  | some v => .next (s.returns v)
  | none => .fault .busError

/-- A write access (R55, R56). -/
def serveWrite (a : Addr) (size : Nat) (v : Word) (s : State) : Answer :=
  match locate a size with
  | none => .fault .busError
  | some .cmd => execWord v s
  | some l =>
    match s.store v l with
    | some t => .next t
    | none => .fault .busError

/-- One host event. -/
def serve (e : HostEvent) (s : State) : Answer :=
  match e with
  | .read a size => serveRead a size s
  | .write a size v => serveWrite a size v s
  | .reset => .next s.resetBy

end Sys2Proof.Machine
end

