-- ==== Sys2Proof/Machine/Step.lean ====
section
/-! DEFINITION. One step: the next pending host event is served; with none pending, QRC holds its state
(60_exceptions.md R244; 70_reset_and_hazards.md R262). QRC fetches nothing: a command arrives as the data of one `CMD`
write (20_memory.md R64). -/

namespace Sys2Proof.Machine

/-- One step of QRC and its host (R50). -/
def step (s : State) : Host.Outcome State Fault Refusal :=
  match s.inputs with
  | [] => .next s
  | e :: rest => serve e (s.take rest)

/-- The host's next input is a write of this command word to `CMD`, so the next step runs it (log entry 4). -/
def State.withFetchWord (s : State) (nbits w : Nat) : State :=
  { s with inputs := .write 0x0000 4 (BitVec.ofNat 32 (w % 2 ^ min nbits 32)) :: s.inputs }

end Sys2Proof.Machine
end

