-- ==== Sys2Proof/Machine/Script.lean ====
section
/-! DEFINITION. The host-script statements and pseudo-instructions (30_encoding.md R86, R87), as the host events they
stand for. The statements are held as data; how they are spelled in characters is notation only (log entry 12). -/

namespace Sys2Proof.Machine

/-- `ADDR`: a number, or the name of a mapped location (R86). -/
inductive AddrName where
  | number (n : Nat)
  | location (l : Location)
deriving DecidableEq, Repr

/-- One line of a host script (R86), pseudo-instructions included (R87). -/
inductive ScriptStatement where
  | cmd (c : CommandStatement)
  | wr (a : AddrName) (v : Nat)
  | rd (a : AddrName)
  /-- `LOADSTR "s"`. -/
  | loadStr (s : List Byte)
  /-- `ENCODE "s"`. -/
  | encodeStr (s : List Byte)
  /-- `RDGRID`. -/
  | rdGrid
  /-- `CHKFAULT`. -/
  | chkFault
deriving DecidableEq, Repr

/-- The address an `ADDR` stands for; a number is a 16-bit address (R50, R86). -/
def AddrName.addr? : AddrName → Option Addr
  | .number n => if n < 2 ^ 16 then some (BitVec.ofNat 16 n) else none
  | .location l => some l.addr

/-- `MemRead(a, 4)`. -/
def readEvent (a : Addr) : HostEvent := .read a 4

/-- `MemWrite(a, 4, v)`. -/
def writeEvent (a : Addr) (v : Word) : HostEvent := .write a 4 v

/-- `IBUF[i]` as a write target, for `i` = 0..16. -/
def ibufWrite (i : Fin 17) (x : Byte) : HostEvent := writeEvent (Location.ibuf i).addr (x.setWidth 32)

/-- `LOADSTR "s"` (R87): at most 17 bytes to `IBUF` in order, then the true length to `LEN`. -/
def loadStrEvents (s : List Byte) : List HostEvent :=
  ((List.finRange 17).zip s).map (fun p => ibufWrite p.1 p.2)
    ++ [writeEvent Location.len.addr (BitVec.ofNat 32 s.length)]

/-- `RDGRID` (R87): the 441 modules in row-major order. -/
def rdGridEvents : List HostEvent :=
  (List.finRange 21).flatMap (fun r => (List.finRange 21).map (fun c => readEvent (Location.grid r c).addr))

/-- The host events of a statement, and a refusal of a statement R86 or R87 does not allow. -/
def ScriptStatement.events : ScriptStatement → Option (List HostEvent)
  | .cmd c => c.assemble.map (fun w => [writeEvent Location.cmd.addr w])
  | .wr a v => if v < 2 ^ 32 then a.addr?.map (fun a => [writeEvent a (BitVec.ofNat 32 v)]) else none
  | .rd a => a.addr?.map (fun a => [readEvent a])
  | .loadStr s => if s.length ≤ 255 then some (loadStrEvents s) else none
  | .encodeStr s =>
    if s.length ≤ 255 then some (loadStrEvents s ++ [writeEvent Location.cmd.addr (encode .run)]) else none
  | .rdGrid => some rdGridEvents
  | .chkFault => some [readEvent Location.fault.addr]

/-- The host events of a script, line by line; none if a line is refused. -/
def scriptEvents : List ScriptStatement → Option (List HostEvent)
  | [] => some []
  | st :: rest => do
    let es ← st.events
    let more ← scriptEvents rest
    some (es ++ more)

end Sys2Proof.Machine
end

