-- ==== Sys2Proof/Safety.lean ====
section
/-! DEFINITION. What the claims call a sound state and a safe step: the ROMs hold their fixed contents (10_state.md R29
to R33, 20_memory.md R66), and a recorded fault is explained by the recorded command word (60_exceptions.md R231,
R232). -/

namespace Sys2Proof.Machine

/-- The ROMs hold the contents every QRC holds (R29 to R33). -/
abbrev RomFixed (s : State) : Prop := s.toRom = Rom.fixed

/-- `FAULT` = `code` is explained by `FCMD` = `w`: code 0 with a zero word, and each of the codes 1 to 7 with a word
whose decoding is a command that raises it (R231); no other code occurs. -/
def faultExplained (code : BitVec 4) (w : Word) : Bool :=
  match code.toNat, decode w with
  | 0, _ => w == 0
  | 1, .error _ => true
  | 2, .ok (.gfDiv _ b) => b == 0
  | 3, .ok (.rsEnc n _) => n == 0
  | 4, .ok (.rsEnc n e) => n != 0 && e == 0
  | 5, .ok (.rsEnc n e) => n != 0 && e != 0 && e != 7
  | 6, .ok (.rsEnc n e) => e == 7 && decide (n.toNat > 19)
  | 7, .ok .bsPack => true
  | 7, .ok .run => true
  | _, _ => false

/-- The invariant of the unit: fixed ROMs and an explained fault record. -/
structure Sound (s : State) : Prop where
  rom : RomFixed s
  fault : faultExplained s.fault s.fcmd = true

/-- A step that does not end in a bus error. -/
def SafeStep (s : State) : Prop := ∃ t, step s = .next t

end Sys2Proof.Machine
end

