-- ==== Sys2Proof/Certificates/Slice0/Obligations.lean ====
section
/-! DEFINITION. The statements for the provers. `Sys2Proof.Ref` holds what they are stated with: readings of the spec's
rules that do not call the model's commands. `Sys2Proof.Ref.placement` is the table of 43_matrix.md R182. -/

namespace Sys2Proof.Ref

open Sys2Proof.Machine

/-- A `match`/`mask` row of R83: every word it selects decodes to the command with the operands of R80. -/
def DecodesAs (code mask : Word) (build : Byte → Byte → Instr) : Prop :=
  ∀ w : Word, w &&& mask = code → decode w = .ok (build (w.extractLsb' 8 8) (w.extractLsb' 0 8))

/-- One row of R83 with the operands its command uses (R82). -/
structure OpcodeRow where
  mnemonic : Mnemonic
  code : Word
  mask : Word
  build : Byte → Byte → Instr

/-- The table of R83. -/
def opcodeRows : List OpcodeRow :=
  [{ mnemonic := .gfAdd, code := 0x10000000, mask := 0xFFFF0000, build := .gfAdd },
   { mnemonic := .gfSub, code := 0x11000000, mask := 0xFFFF0000, build := .gfSub },
   { mnemonic := .gfMul, code := 0x12000000, mask := 0xFFFF0000, build := .gfMul },
   { mnemonic := .gfDiv, code := 0x13000000, mask := 0xFFFF0000, build := .gfDiv },
   { mnemonic := .gfExp, code := 0x14000000, mask := 0xFFFF00FF, build := fun a _ => .gfExp a },
   { mnemonic := .gfLog, code := 0x15000000, mask := 0xFFFF00FF, build := fun a _ => .gfLog a },
   { mnemonic := .rsEnc, code := 0x20000000, mask := 0xFFFF0000, build := .rsEnc },
   { mnemonic := .bsPack, code := 0x30000000, mask := 0xFFFFFFFF, build := fun _ _ => .bsPack },
   { mnemonic := .mxSeed, code := 0x40000000, mask := 0xFFFFFFFF, build := fun _ _ => .mxSeed },
   { mnemonic := .mxPlace, code := 0x41000000, mask := 0xFFFFFFFF, build := fun _ _ => .mxPlace },
   { mnemonic := .mkMask0, code := 0x50000000, mask := 0xFFFFFFFF, build := fun _ _ => .mkMask0 },
   { mnemonic := .fwWrite, code := 0x51000000, mask := 0xFFFFFFFF, build := fun _ _ => .fwWrite },
   { mnemonic := .run, code := 0x60000000, mask := 0xFFFFFFFF, build := fun _ _ => .run }]

/-- The word with opcode `op` and operands `a`, `b` (R80). -/
def wordOf (op : Nat) (a b : Byte) : Word := BitVec.ofNat 32 (op * 0x1000000 + a.toNat * 0x100 + b.toNat)

/-- The state in which a served access leaves QRC before its own effect: the event is taken, no value is returned. -/
def served (s : State) (rest : List HostEvent) : State := { s with inputs := rest, rdata := none }

/-- The host's next event writes `w` to `CMD` (R25). -/
def CmdWrite (s : State) (w : Word) (rest : List HostEvent) : Prop := s.inputs = .write 0x0000 4 w :: rest

/-- Multiplication by x, as the table construction does it (R101). -/
def timesX (x : Byte) : Byte :=
  BitVec.ofNat 8 (if x.toNat <<< 1 ≥ 256 then (x.toNat <<< 1) ^^^ 0x11D else x.toNat <<< 1)

/-- αⁿ, n-fold multiplication of 1 by x (R100, R101). -/
def alphaPow (n : Nat) : Byte := timesX^[n] 1

/-- The product of two polynomials over GF(2), reduced modulo 0x11D (R100): the sum of a·xⁱ over the bits i of b. -/
def fieldMul (a b : Byte) : Byte :=
  (List.range 8).foldl (fun acc i => if b.getLsbD i then acc ^^^ timesX^[i] a else acc) 0

/-- The value at `x` of the polynomial a byte sequence stands for, index 0 the highest power (R131). -/
def polyEval (p : List Byte) (x : Byte) : Byte := p.foldl (fun acc c => fieldMul acc x ^^^ c) 0

/-- One data byte through the seven-stage remainder register of the generator 01 7F 7A 9A A4 0B 44 75 (R130). -/
def rsShift (reg : List Byte) (d : Byte) : List Byte :=
  List.zipWith (fun r g => r ^^^ fieldMul (d ^^^ reg.headD 0) g) (reg.tail ++ [0])
    [0x7F, 0x7A, 0x9A, 0xA4, 0x0B, 0x44, 0x75]

/-- The remainder of D(x)·x⁷ modulo the generator, highest power first (R132), by the register division. -/
def rsEc (data : List Byte) : List Byte := data.foldl rsShift (List.replicate 7 0)

/-- `CW[0..n-1]`. -/
def cwList (s : State) (n : Nat) : List Byte := (List.range n).map (fun k => bufGet s.cw k)

/-- `out[i]` of the packer in closed form (R152), for an input of `len` bytes `S 0 .. S (len-1)`. -/
def packedByte (len : Byte) (S : Nat → Byte) (i : Nat) : Byte :=
  if i = 0 then 0x40 ||| (len >>> 4)
  else if i = 1 then
    if len.toNat ≥ 1 then ((len &&& 0xF) <<< 4) ||| (S 0 >>> 4) else 0x00
  else if i ≤ len.toNat then ((S (i - 2) &&& 0xF) <<< 4) ||| (S (i - 1) >>> 4)
  else if i = len.toNat + 1 then (S (len.toNat - 1) &&& 0xF) <<< 4
  else if (i - (len.toNat + 2)) % 2 = 0 then 0xEC else 0x11

/-- The `n` low bits of `v`, most significant first. -/
def bitsMsb (n v : Nat) : List Bool := (List.range n).map (fun i => v.testBit (n - 1 - i))

/-- The stream of R150: mode, count, payload, terminator, pads. -/
def stream (len : Nat) (S : Nat → Byte) : List Bool :=
  bitsMsb 4 0b0100 ++ bitsMsb 8 len ++ (List.range len).flatMap (fun i => bitsMsb 8 (S i).toNat) ++ bitsMsb 4 0
    ++ (List.range (17 - len)).flatMap (fun k => bitsMsb 8 (if k % 2 = 0 then 0xEC else 0x11))

/-- The timing modules of R173. -/
def isTiming (r c : Nat) : Bool := (r == 6 && 8 ≤ c && c ≤ 12) || (c == 6 && 8 ≤ r && r ≤ 12)

/-- The encoding-region predicate of R175, for natural coordinates. -/
def inRegion (r c : Nat) : Bool :=
  r ≤ 20 && c ≤ 20 && !isTiming r c && !(r ≤ 8 && c ≤ 8) && !(r ≤ 8 && c ≥ 13) && !(r ≥ 13 && c ≤ 8)

/-- A finder pattern by distance from its centre: light exactly on the ring at distance 2 (R171). -/
def finderAt (i j : Nat) : Module :=
  if max ((i : Int) - 3).natAbs ((j : Int) - 3).natAbs = 2 then 0 else 1

/-- The module `(r, c)` after `MX.SEED` (R171, R173, R179). -/
def seededModule (r c : Nat) : Module :=
  if r ≤ 6 ∧ c ≤ 6 then finderAt r c
  else if r ≤ 6 ∧ 14 ≤ c then finderAt r (c - 14)
  else if 14 ≤ r ∧ c ≤ 6 then finderAt (r - 14) c
  else if isTiming r c then (if (r + c) % 2 = 0 then 1 else 0)
  else 0

/-- The placement map of R182: row `k`, from bit 7 down to bit 0. -/
def placement : List (List (Nat × Nat)) :=
  [[(20, 20), (20, 19), (19, 20), (19, 19), (18, 20), (18, 19), (17, 20), (17, 19)],
   [(16, 20), (16, 19), (15, 20), (15, 19), (14, 20), (14, 19), (13, 20), (13, 19)],
   [(12, 20), (12, 19), (11, 20), (11, 19), (10, 20), (10, 19), (9, 20), (9, 19)],
   [(9, 18), (9, 17), (10, 18), (10, 17), (11, 18), (11, 17), (12, 18), (12, 17)],
   [(13, 18), (13, 17), (14, 18), (14, 17), (15, 18), (15, 17), (16, 18), (16, 17)],
   [(17, 18), (17, 17), (18, 18), (18, 17), (19, 18), (19, 17), (20, 18), (20, 17)],
   [(20, 16), (20, 15), (19, 16), (19, 15), (18, 16), (18, 15), (17, 16), (17, 15)],
   [(16, 16), (16, 15), (15, 16), (15, 15), (14, 16), (14, 15), (13, 16), (13, 15)],
   [(12, 16), (12, 15), (11, 16), (11, 15), (10, 16), (10, 15), (9, 16), (9, 15)],
   [(9, 14), (9, 13), (10, 14), (10, 13), (11, 14), (11, 13), (12, 14), (12, 13)],
   [(13, 14), (13, 13), (14, 14), (14, 13), (15, 14), (15, 13), (16, 14), (16, 13)],
   [(17, 14), (17, 13), (18, 14), (18, 13), (19, 14), (19, 13), (20, 14), (20, 13)],
   [(20, 12), (20, 11), (19, 12), (19, 11), (18, 12), (18, 11), (17, 12), (17, 11)],
   [(16, 12), (16, 11), (15, 12), (15, 11), (14, 12), (14, 11), (13, 12), (13, 11)],
   [(12, 12), (12, 11), (11, 12), (11, 11), (10, 12), (10, 11), (9, 12), (9, 11)],
   [(8, 12), (8, 11), (7, 12), (7, 11), (5, 12), (5, 11), (4, 12), (4, 11)],
   [(3, 12), (3, 11), (2, 12), (2, 11), (1, 12), (1, 11), (0, 12), (0, 11)],
   [(0, 10), (0, 9), (1, 10), (1, 9), (2, 10), (2, 9), (3, 10), (3, 9)],
   [(4, 10), (4, 9), (5, 10), (5, 9), (7, 10), (7, 9), (8, 10), (8, 9)],
   [(9, 10), (9, 9), (10, 10), (10, 9), (11, 10), (11, 9), (12, 10), (12, 9)],
   [(13, 10), (13, 9), (14, 10), (14, 9), (15, 10), (15, 9), (16, 10), (16, 9)],
   [(17, 10), (17, 9), (18, 10), (18, 9), (19, 10), (19, 9), (20, 10), (20, 9)],
   [(12, 8), (12, 7), (11, 8), (11, 7), (10, 8), (10, 7), (9, 8), (9, 7)],
   [(9, 5), (9, 4), (10, 5), (10, 4), (11, 5), (11, 4), (12, 5), (12, 4)],
   [(12, 3), (12, 2), (11, 3), (11, 2), (10, 3), (10, 2), (9, 3), (9, 2)],
   [(9, 1), (9, 0), (10, 1), (10, 0), (11, 1), (11, 0), (12, 1), (12, 0)]]

/-- The module that receives bit `b` of codeword `k` (R182). -/
def moduleOf (k b : Nat) : Nat × Nat := (placement.getD k []).getD (7 - b) (0, 0)

/-- The bit mask pattern 0 adds at `(r, c)` (R200). -/
def maskBit (r c : Nat) : Module := if (r + c) % 2 = 0 then 1 else 0

/-- The first format path (R203). -/
def path1 : List (Nat × Nat) :=
  (List.range 6).map (fun i => (i, 8)) ++ [(7, 8), (8, 8), (8, 7)] ++ (List.range 6).map (fun i => (8, 5 - i))

/-- The second format path (R204). -/
def path2 : List (Nat × Nat) :=
  (List.range 8).map (fun i => (8, 20 - i)) ++ (List.range 7).map (fun i => (14 + i, 8))

/-- The format modules and the dark module (R203, R204, R206). -/
def isFormat (r c : Nat) : Bool := path1.contains (r, c) || path2.contains (r, c) || (r == 13 && c == 8)

/-- The number a path reads back, bit `k` from the module numbered `k` (R205, R208). -/
def readBack (g : Grid) (path : List (Nat × Nat)) : Nat :=
  (path.zipIdx.map (fun pk => (gridGet g pk.1.1 pk.1.2).toNat * 2 ^ pk.2)).sum

/-- How many of the 441 modules are dark. -/
def darkCount (g : Grid) : Nat :=
  ((List.range 21).map (fun r => ((List.range 21).map (fun c => (gridGet g r c).toNat)).sum)).sum

/-- The code a command's own checks give, in the order of R231 and R235; 0 when none holds. -/
def raises (i : Instr) (s : State) : BitVec 4 :=
  match i with
  | .gfDiv _ b => if b = 0 then 2 else 0
  | .rsEnc n e => if n = 0 then 3 else if e = 0 then 4 else if e ≠ 7 then 5 else if n.toNat > 19 then 6 else 0
  | .bsPack => if s.len.toNat > 17 then 7 else 0
  | .run => if s.len.toNat > 17 then 7 else 0
  | .gfAdd _ _ => 0
  | .gfSub _ _ => 0
  | .gfMul _ _ => 0
  | .gfExp _ => 0
  | .gfLog _ => 0
  | .mxSeed => 0
  | .mxPlace => 0
  | .mkMask0 => 0
  | .fwWrite => 0

/-- The six GF commands. -/
def isGf : Instr → Bool
  | .gfAdd _ _ => true
  | .gfSub _ _ => true
  | .gfMul _ _ => true
  | .gfDiv _ _ => true
  | .gfExp _ => true
  | .gfLog _ => true
  | _ => false

/-- The locations a command's rule lets it write (R67, R106 to R111, R133, R153, R179, R181, R201, R207, R220), the two
fault registers where the command can raise a fault (R231). -/
def mayWrite (i : Instr) : Location → Bool
  | .res => isGf i
  | .fault => match i with
    | .gfDiv _ _ => true | .rsEnc _ _ => true | .bsPack => true | .run => true | _ => false
  | .fcmd => match i with
    | .gfDiv _ _ => true | .rsEnc _ _ => true | .bsPack => true | .run => true | _ => false
  | .cw k => match i with
    | .rsEnc n e => e == 7 && decide (n.toNat ≤ 19) && decide (n.toNat ≤ k.val) && decide (k.val < n.toNat + 7)
    | .bsPack => decide (k.val < 19)
    | .run => true
    | _ => false
  | .grid r c => match i with
    | .mxSeed => true
    | .mxPlace => inRegion r c
    | .mkMask0 => inRegion r c && (r.val + c.val) % 2 == 0
    | .fwWrite => isFormat r c
    | .run => true
    | _ => false
  | _ => false

/-- Run `i` after an answer that is a next state. -/
def thenExec (o : Answer) (i : Instr) : Answer :=
  match o with
  | .next t => exec i t
  | .fault r => .fault r
  | .refused r => .refused r

/-- The pairs that commute (R265). -/
def commuting : Instr → Instr → Bool
  | .bsPack, .mxSeed => true
  | .bsPack, .mkMask0 => true
  | .bsPack, .fwWrite => true
  | .rsEnc _ _, .mxSeed => true
  | .rsEnc _ _, .mkMask0 => true
  | .rsEnc _ _, .fwWrite => true
  | .fwWrite, .mxPlace => true
  | .fwWrite, .mkMask0 => true
  | i, j => isGf i && !isGf j

/-- A byte address the host may read (R52), as explicit ranges. -/
def readable (n : Nat) : Prop :=
  n % 4 = 0 ∧ (n = 0x0004 ∨ n = 0x0008 ∨ n = 0x000C ∨ n = 0x0010 ∨ n = 0x0014 ∨ (0x0020 ≤ n ∧ n ≤ 0x003C) ∨
    (0x0040 ≤ n ∧ n ≤ 0x0080) ∨ (0x0100 ≤ n ∧ n ≤ 0x0164) ∨ (0x0400 ≤ n ∧ n ≤ 0x07FC) ∨
    (0x0800 ≤ n ∧ n ≤ 0x0BFC) ∨ (0x1000 ≤ n ∧ n ≤ 0x16E0) ∨ (0x2000 ≤ n ∧ n ≤ 0x26E0))

/-- A byte address the host may write (R52): `CMD`, `LEN`, `IBUF`, `CW` and `GRID`. -/
def writable (n : Nat) : Prop :=
  n % 4 = 0 ∧ (n = 0x0000 ∨ n = 0x0010 ∨ (0x0040 ≤ n ∧ n ≤ 0x0080) ∨ (0x0100 ≤ n ∧ n ≤ 0x0164) ∨
    (0x1000 ≤ n ∧ n ≤ 0x16E0))

/-- A read of byte address `n` completes with `v` and changes nothing else. -/
def ReadsAs (s : State) (n : Nat) (v : Word) : Prop :=
  ∀ rest, s.inputs = .read (BitVec.ofNat 16 n) 4 :: rest →
    step s = .next { s with inputs := rest, rdata := some v }

end Sys2Proof.Ref

open Sys2Proof Sys2Proof.Machine

/-- Decode and encode agree (30_encoding.md R80, R82, R83, R85): for every command, with each operand at every value 0..255. -/
def Obligations.DecodeOfEncodeIsTheCommand : Prop :=
  ∀ i : Instr, decode (encode i) = .ok i

/-- The other direction of the round trip: no bit of a legal word is ignored, so the word a fault records is the word the host wrote (log entry 9). -/
def Obligations.LegalWordIsTheWordOfItsCommand : Prop :=
  ∀ (w : Word) (i : Instr), decode w = .ok i → encode i = w

/-- 30_encoding.md R82, R83: each match/mask row with its free fields at every value, and the rows pairwise disjoint. -/
def Obligations.OpcodeTableRowsDecodeDisjointly : Prop :=
  (∀ row ∈ Ref.opcodeRows, Ref.DecodesAs row.code row.mask row.build) ∧
  (∀ row ∈ Ref.opcodeRows, ∀ other ∈ Ref.opcodeRows, ∀ w : Word,
    w &&& row.mask = row.code → w &&& other.mask = other.code → row.mnemonic = other.mnemonic) ∧
  (∀ row ∈ Ref.opcodeRows, ∀ a b : Byte, (row.build a b).mnemonic = row.mnemonic)

/-- 30_encoding.md R84: which words are illegal, and what an illegal command does. -/
def Obligations.IllegalWordsRaiseIllegalCommand : Prop :=
  (∀ w : Word, (∃ e, decode w = .error e) ↔ ∀ row ∈ Ref.opcodeRows, w &&& row.mask ≠ row.code) ∧
  (∀ w : Word, (∃ e, decode w = .error e) ↔
    (w.extractLsb' 16 8 ≠ 0 ∨
      w.extractLsb' 24 8 ∉ ([0x10, 0x11, 0x12, 0x13, 0x14, 0x15, 0x20, 0x30, 0x40, 0x41, 0x50, 0x51, 0x60] : List Byte) ∨
      (w.extractLsb' 24 8 ∈ ([0x14, 0x15] : List Byte) ∧ w.extractLsb' 0 8 ≠ 0) ∨
      (w.extractLsb' 24 8 ∈ ([0x30, 0x40, 0x41, 0x50, 0x51, 0x60] : List Byte) ∧
        (w.extractLsb' 8 8 ≠ 0 ∨ w.extractLsb' 0 8 ≠ 0)))) ∧
  (∀ (s : State) (w : Word) (rest : List HostEvent), Ref.CmdWrite s w rest → s.fault = 0 →
    (∃ e, decode w = .error e) → step s = .next { Ref.served s rest with fault := 1, fcmd := w })

/-- A sanity statement: one word per family as 95_test_vectors.md writes it. -/
def Obligations.DecodeOfWrittenOutWords : Prop :=
  decode 0x120053CA = .ok (.gfMul 0x53 0xCA) ∧ decode 0x13001D02 = .ok (.gfDiv 0x1D 0x02) ∧
  decode 0x14000800 = .ok (.gfExp 8) ∧ decode 0x20001307 = .ok (.rsEnc 19 7) ∧ decode 0x30000000 = .ok .bsPack ∧
  decode 0x41000000 = .ok .mxPlace ∧ decode 0x51000000 = .ok .fwWrite ∧ decode 0x60000000 = .ok .run ∧
  (∃ e, decode 0x00000000 = .error e)

/-- 30_encoding.md R86, its paragraph on command statements: refusal of any other statement, and no illegal word emitted. -/
def Obligations.AssemblerAcceptsExactlyLegalStatements : Prop :=
  ∀ c : CommandStatement,
    (c.assemble.isSome = true ↔ c.operands.length = c.mnemonic.arity ∧ ∀ v ∈ c.operands, v ≤ 255) ∧
    ∀ w, c.assemble = some w →
      (∃ i, decode w = .ok i ∧ i.mnemonic = c.mnemonic) ∧
      (w.extractLsb' 8 8).toNat = c.operands.getD 0 0 ∧ (w.extractLsb' 0 8).toNat = c.operands.getD 1 0

/-- The step and exec (60_exceptions.md R230, 10_state.md R25): the next host event writes the word to CMD. That events wait in a list is the model's choice (log entry 2), and so is the returned-value field (log entry 3). -/
def Obligations.CommandWriteRunsTheDecodedCommand : Prop :=
  ∀ (s : State) (w : Word) (rest : List HostEvent), Ref.CmdWrite s w rest →
    (∀ i, decode w = .ok i → step s = exec i (Ref.served s rest)) ∧
    (s.fault ≠ 0 → step s = .next (Ref.served s rest)) ∧
    (∀ e, decode w = .error e → s.fault = 0 → step s = .next { Ref.served s rest with fault := 1, fcmd := w })

/-- 60_exceptions.md R244 and 70_reset_and_hazards.md R262: between commands QRC holds its state. The idle step itself is the model's choice (log entry 2). -/
def Obligations.IdleStepHoldsTheState : Prop :=
  ∀ s : State, s.inputs = [] → step s = .next s

/-- 60_exceptions.md R233, both halves: the refusal of commands, and the accesses that still work. -/
def Obligations.CommandsAreRefusedWhileFaulted : Prop :=
  ∀ (s : State) (rest : List HostEvent), s.fault ≠ 0 →
    (∀ w, Ref.CmdWrite s w rest → step s = .next (Ref.served s rest)) ∧
    (∀ i, exec i s = .next s) ∧
    (∀ l v, s.load l = some v → s.inputs = .read l.addr 4 :: rest →
      step s = .next { s with inputs := rest, rdata := some v }) ∧
    (∀ v, s.inputs = .write 0x0010 4 v :: rest → step s = .next { Ref.served s rest with len := v.setWidth 8 }) ∧
    (∀ (i : Fin 17) v, s.inputs = .write (BitVec.ofNat 16 (0x0040 + 4 * i.val)) 4 v :: rest →
      step s = .next { Ref.served s rest with ibuf := bufPut s.ibuf i (v.setWidth 8) }) ∧
    (∀ (k : Fin 26) v, s.inputs = .write (BitVec.ofNat 16 (0x0100 + 4 * k.val)) 4 v :: rest →
      step s = .next { Ref.served s rest with cw := bufPut s.cw k (v.setWidth 8) }) ∧
    (∀ (r c : Fin 21) v, s.inputs = .write (BitVec.ofNat 16 (0x1000 + 4 * (21 * r.val + c.val))) 4 v :: rest →
      step s = .next { Ref.served s rest with grid := gridPut s.grid r c (v.setWidth 1) })

/-- 20_memory.md R54 at every address of R52: the value, zero-extended, and no side effect. -/
def Obligations.HostReadReturnsTheStoredValue : Prop :=
  ∀ s : State,
    Ref.ReadsAs s 0x0004 (s.fault.setWidth 32) ∧ Ref.ReadsAs s 0x0008 s.fcmd ∧
    Ref.ReadsAs s 0x000C (s.res.setWidth 32) ∧ Ref.ReadsAs s 0x0010 (s.len.setWidth 32) ∧
    Ref.ReadsAs s 0x0014 (s.fmtw.setWidth 32) ∧
    (∀ j : Fin 8, Ref.ReadsAs s (0x0020 + 4 * j.val) (s.gen[j].setWidth 32)) ∧
    (∀ i : Fin 17, Ref.ReadsAs s (0x0040 + 4 * i.val) (s.ibuf[i].setWidth 32)) ∧
    (∀ k : Fin 26, Ref.ReadsAs s (0x0100 + 4 * k.val) (s.cw[k].setWidth 32)) ∧
    (∀ hi lo : Fin 16, Ref.ReadsAs s (0x0400 + 4 * (16 * hi.val + lo.val)) (s.exp[hi][lo].setWidth 32)) ∧
    (∀ hi lo : Fin 16, Ref.ReadsAs s (0x0800 + 4 * (16 * hi.val + lo.val)) (s.log[hi][lo].setWidth 32)) ∧
    (∀ r c : Fin 21, Ref.ReadsAs s (0x1000 + 4 * (21 * r.val + c.val)) (BitVec.ofBool (s.grid[r].getLsbD (20 - c.val)) |>.setWidth 32)) ∧
    (∀ r c : Fin 21, Ref.ReadsAs s (0x2000 + 4 * (21 * r.val + c.val)) (BitVec.ofBool (s.smask[r].getLsbD (20 - c.val)) |>.setWidth 32))

/-- 20_memory.md R55: the four storage targets with their frames, and CMD. -/
def Obligations.HostWriteStoresTheLowBitsOnly : Prop :=
  ∀ (s : State) (rest : List HostEvent) (v : Word),
    (s.inputs = .write 0x0010 4 v :: rest → step s = .next { Ref.served s rest with len := v.setWidth 8 }) ∧
    (∀ i < 17, s.inputs = .write (BitVec.ofNat 16 (0x0040 + 4 * i)) 4 v :: rest →
      ∃ t, step s = .next t ∧ t = { Ref.served s rest with ibuf := t.ibuf } ∧ bufGet t.ibuf i = v.setWidth 8 ∧
        ∀ j, j ≠ i → bufGet t.ibuf j = bufGet s.ibuf j) ∧
    (∀ k < 26, s.inputs = .write (BitVec.ofNat 16 (0x0100 + 4 * k)) 4 v :: rest →
      ∃ t, step s = .next t ∧ t = { Ref.served s rest with cw := t.cw } ∧ bufGet t.cw k = v.setWidth 8 ∧
        ∀ j, j ≠ k → bufGet t.cw j = bufGet s.cw j) ∧
    (∀ r < 21, ∀ c < 21, s.inputs = .write (BitVec.ofNat 16 (0x1000 + 4 * (21 * r + c))) 4 v :: rest →
      ∃ t, step s = .next t ∧ t = { Ref.served s rest with grid := t.grid } ∧ gridGet t.grid r c = v.setWidth 1 ∧
        ∀ r' c', (r', c') ≠ (r, c) → gridGet t.grid r' c' = gridGet s.grid r' c') ∧
    (∀ i, Ref.CmdWrite s v rest → decode v = .ok i → step s = exec i (Ref.served s rest))

/-- 20_memory.md R56 with the ranges of R52 written out. A bus error stops the run as a fault, so it has no next state; every other access has one. -/
def Obligations.BusErrorExactlyOffTheMap : Prop :=
  (∀ (s : State) (rest : List HostEvent) (a : Addr) (size : Nat), s.inputs = .read a size :: rest →
    (step s = .fault .busError ↔ ¬ (size = 4 ∧ Ref.readable a.toNat)) ∧
    (size = 4 ∧ Ref.readable a.toNat → ∃ t, step s = .next t)) ∧
  (∀ (s : State) (rest : List HostEvent) (a : Addr) (size : Nat) (v : Word), s.inputs = .write a size v :: rest →
    (step s = .fault .busError ↔ ¬ (size = 4 ∧ Ref.writable a.toNat)) ∧
    (size = 4 ∧ Ref.writable a.toNat → ∃ t, step s = .next t))

/-- 20_memory.md R53, with its example. -/
def Obligations.ModuleAddressesAreRowMajor : Prop :=
  (∀ (a : Addr) (r c : Fin 21), locate a 4 = some (.grid r c) ↔ a.toNat = 0x1000 + 4 * (21 * r.val + c.val)) ∧
  (∀ (a : Addr) (r c : Fin 21), locate a 4 = some (.smask r c) ↔ a.toNat = 0x2000 + 4 * (21 * r.val + c.val)) ∧
  locate 0x1464 4 = some (.grid 13 8)

/-- 20_memory.md R63 for one write: the last write to a location is what a read returns. -/
def Obligations.ReadAfterWriteReturnsTheWrittenValue : Prop :=
  ∀ (s : State) (l : Location) (v : Word) (t : State),
    l = .len ∨ (∃ i, l = .ibuf i) ∨ (∃ k, l = .cw k) ∨ (∃ r c, l = .grid r c) →
    ∀ (l' : Location) (rest : List HostEvent), s.inputs = .write l.addr 4 v :: .read l'.addr 4 :: rest →
    step s = .next t →
      (l' = l → step t = .next { t with inputs := rest, rdata := some (match l with
        | .grid _ _ => (v.setWidth 1).setWidth 32
        | _ => (v.setWidth 8).setWidth 32) }) ∧
      (l' ≠ l → ∀ u, s.load l' = some u → step t = .next { t with inputs := rest, rdata := some u })

/-- 70_reset_and_hazards.md R261, for the reset state and for the reset input in any state. The clause `t.inputs = rest` is no part of R261: that the later host events stay pending is the model's convention (log entry 6, DEDUCED). -/
def Obligations.ResetZeroesAllButTheRoms : Prop :=
  (∀ (s : State) (rest : List HostEvent), s.inputs = .reset :: rest → ∃ t, step s = .next t ∧
    t.len = 0 ∧ t.res = 0 ∧ t.fault = 0 ∧ t.fcmd = 0 ∧ (∀ i, bufGet t.ibuf i = 0) ∧ (∀ k, bufGet t.cw k = 0) ∧
    (∀ r c, gridGet t.grid r c = 0) ∧ t.toRom = s.toRom ∧ t.inputs = rest) ∧
  State.reset.len = 0 ∧ State.reset.res = 0 ∧ State.reset.fault = 0 ∧ State.reset.fcmd = 0 ∧
  (∀ i, bufGet State.reset.ibuf i = 0) ∧ (∀ k, bufGet State.reset.cw k = 0) ∧
  (∀ r c, gridGet State.reset.grid r c = 0) ∧ RomFixed State.reset

/-- 40_gf.md R101, evaluated on the ROM contents. -/
def Obligations.TableRomsFollowTheConstruction : Prop :=
  (∀ i < 255, tableGet Rom.fixed.exp i = Ref.alphaPow i) ∧ tableGet Rom.fixed.exp 255 = tableGet Rom.fixed.exp 0 ∧
  (∀ i < 255, (tableGet Rom.fixed.log (Ref.alphaPow i).toNat).toNat = i) ∧ tableGet Rom.fixed.log 0 = 0

/-- About the coefficients of 41_rs.md R130, which the spec marks "[from general knowledge, not in source]": the model takes them as it gives them (log entry 11). -/
def Obligations.GeneratorRomHasSevenRoots : Prop :=
  bufGet Rom.fixed.gen 0 = 1 ∧ (∀ i < 7, Ref.polyEval Rom.fixed.gen.toList (Ref.alphaPow i) = 0)

/-- 10_state.md R33 and 43_matrix.md R175, R176: the ROM rows, which the spec derives by evaluation, against the predicate. -/
def Obligations.StructuralMaskIsTheComplementOfTheRegion : Prop :=
  (∀ r < 21, ∀ c < 21, gridGet Rom.fixed.smask r c = if Ref.inRegion r c then 0 else 1) ∧
  Ref.darkCount Rom.fixed.smask = 441 - 208

/-- 40_gf.md R106 and R107: encoding, result and frame. -/
def Obligations.GfAddAndSubAreExclusiveOr : Prop :=
  Ref.DecodesAs 0x10000000 0xFFFF0000 .gfAdd ∧ Ref.DecodesAs 0x11000000 0xFFFF0000 .gfSub ∧
  ∀ (s : State) (a b : Byte), s.fault = 0 →
    exec (.gfAdd a b) s = .next { s with res := a ^^^ b } ∧
    exec (.gfSub a b) s = .next { s with res := a ^^^ b }

/-- 40_gf.md R105 and R108 for the table computation. That it is the product of the polynomials of R100 is what the spec says a GF element is, and its tables derive. -/
def Obligations.GfMulIsTheProductModuloThePolynomial : Prop :=
  Ref.DecodesAs 0x12000000 0xFFFF0000 .gfMul ∧
  ∀ (s : State) (a b : Byte), s.fault = 0 → RomFixed s →
    exec (.gfMul a b) s = .next { s with res := Ref.fieldMul a b } ∧
    Ref.fieldMul a b = if a = 0 ∨ b = 0 then 0
      else tableGet s.exp (((tableGet s.log a.toNat).toNat + (tableGet s.log b.toNat).toNat) % 255)

/-- 40_gf.md R109 with the quotient of R105; the fault entry of 60_exceptions.md R232. -/
def Obligations.GfDivFaultsOnZeroAndElseInvertsTheProduct : Prop :=
  Ref.DecodesAs 0x13000000 0xFFFF0000 .gfDiv ∧
  (∀ (s : State) (a : Byte), s.fault = 0 →
    exec (.gfDiv a 0) s = .next { s with fault := 2, fcmd := Ref.wordOf 0x13 a 0 }) ∧
  (∀ (s : State) (a b : Byte), s.fault = 0 → RomFixed s → b ≠ 0 →
    ∃ q, exec (.gfDiv a b) s = .next { s with res := q } ∧
      (∀ p, Ref.fieldMul p b = a ↔ p = q) ∧
      q = if a = 0 then 0 else tableGet s.exp
        ((((tableGet s.log a.toNat).toNat : Int) - (tableGet s.log b.toNat).toNat + 255) % 255).toNat)

/-- 40_gf.md R110, with the construction of R101 for the entry. -/
def Obligations.GfExpIsThePowerOfAlpha : Prop :=
  Ref.DecodesAs 0x14000000 0xFFFF00FF (fun a _ => .gfExp a) ∧
  ∀ (s : State) (a : Byte), s.fault = 0 → RomFixed s →
    exec (.gfExp a) s = .next { s with res := Ref.alphaPow a.toNat } ∧
    tableGet s.exp a.toNat = Ref.alphaPow a.toNat ∧ Ref.alphaPow a.toNat ≠ 0 ∧ Ref.alphaPow 255 = 0x01

/-- 40_gf.md R111, the conventional entry LOG[0] = 0 included. -/
def Obligations.GfLogIsTheExponent : Prop :=
  Ref.DecodesAs 0x15000000 0xFFFF00FF (fun a _ => .gfLog a) ∧
  ∀ (s : State) (a : Byte), s.fault = 0 → RomFixed s →
    ∃ e, exec (.gfLog a) s = .next { s with res := e } ∧ e = tableGet s.log a.toNat ∧
      (a = 0 → e = 0) ∧ (a ≠ 0 → e.toNat < 255 ∧ Ref.alphaPow e.toNat = a)

/-- The laws of 40_gf.md R112, which the spec marks "[derived: from rules R100 to R105 ...]", for the model's gf_add, gf_mul and gf_div: each of its bullets is a clause. -/
def Obligations.GfFunctionsFormAField : Prop :=
  ∀ a b c : Byte,
    gfAdd a a = 0 ∧ gfAdd a 0 = a ∧ gfAdd a b = gfAdd b a ∧ gfAdd (gfAdd a b) c = gfAdd a (gfAdd b c) ∧
    gfMul Rom.fixed a 1 = a ∧ gfMul Rom.fixed a 0 = 0 ∧
    gfMul Rom.fixed a b = gfMul Rom.fixed b a ∧
    gfMul Rom.fixed (gfMul Rom.fixed a b) c = gfMul Rom.fixed a (gfMul Rom.fixed b c) ∧
    gfMul Rom.fixed a (gfAdd b c) = gfAdd (gfMul Rom.fixed a b) (gfMul Rom.fixed a c) ∧
    (b ≠ 0 → gfDiv Rom.fixed (gfMul Rom.fixed a b) b = some a) ∧
    (b ≠ 0 → ∃ v, gfDiv Rom.fixed 1 b = some v ∧ gfMul Rom.fixed b v = 1) ∧
    gfDiv Rom.fixed a 0 = none ∧
    (a ≠ 0 → tableGet Rom.fixed.exp (tableGet Rom.fixed.log a.toNat).toNat = a)

/-- 41_rs.md R132, R133 and 60_exceptions.md R235. The remainder is stated by the register division with the coefficients of R130, which the spec marks "[from general knowledge, not in source]" (log entry 11). -/
def Obligations.RsEncChecksThenWritesTheRemainder : Prop :=
  Ref.DecodesAs 0x20000000 0xFFFF0000 .rsEnc ∧
  (∀ (s : State) (n e : Byte), s.fault = 0 →
    (n = 0 → exec (.rsEnc n e) s = .next { s with fault := 3, fcmd := Ref.wordOf 0x20 n e }) ∧
    (n ≠ 0 → e = 0 → exec (.rsEnc n e) s = .next { s with fault := 4, fcmd := Ref.wordOf 0x20 n e }) ∧
    (n ≠ 0 → e ≠ 0 → e ≠ 7 → exec (.rsEnc n e) s = .next { s with fault := 5, fcmd := Ref.wordOf 0x20 n e }) ∧
    (n.toNat > 19 → e = 7 → exec (.rsEnc n e) s = .next { s with fault := 6, fcmd := Ref.wordOf 0x20 n e })) ∧
  (∀ (s : State) (n : Byte), s.fault = 0 → RomFixed s → 1 ≤ n.toNat → n.toNat ≤ 19 →
    ∃ t, exec (.rsEnc n 7) s = .next t ∧ t = { s with cw := t.cw } ∧
      (∀ j < 7, bufGet t.cw (n.toNat + j) = (Ref.rsEc (Ref.cwList s n.toNat)).getD j 0) ∧
      (∀ k, ¬ (n.toNat ≤ k ∧ k < n.toNat + 7) → bufGet t.cw k = bufGet s.cw k))

/-- The correctness property of 41_rs.md R134, which the spec marks "[derived: from rule R130]", for the bytes the command leaves. It rests on the coefficients of R130, which the spec marks "[from general knowledge, not in source]" (log entry 11). -/
def Obligations.EncodedCodewordsVanishAtTheRoots : Prop :=
  ∀ (s : State) (n : Byte), s.fault = 0 → RomFixed s → 1 ≤ n.toNat → n.toNat ≤ 19 →
    ∃ t, exec (.rsEnc n 7) s = .next t ∧
      ∀ i < 7, Ref.polyEval (Ref.cwList t (n.toNat + 7)) (Ref.alphaPow i) = 0

/-- The divisibility of 41_rs.md R134, which the spec marks "[derived: from rules R131, R132; ...]": the same division over all N + 7 bytes. The division takes the coefficients of R130, which the spec marks "[from general knowledge, not in source]" (log entry 11). -/
def Obligations.RemainderOfDataWithItsRemainderIsZero : Prop :=
  ∀ d : List Byte, 1 ≤ d.length → d.length ≤ 19 →
    rsRemainder Rom.fixed (d ++ rsRemainder Rom.fixed d) = List.replicate 7 0

/-- 42_bitstream.md R151, R153, R154. The bytes are stated by the closed form of R152, which the spec marks "[derived: from rule R151]". -/
def Obligations.BsPackChecksLengthThenPacksTheInput : Prop :=
  Ref.DecodesAs 0x30000000 0xFFFFFFFF (fun _ _ => .bsPack) ∧
  (∀ s : State, s.fault = 0 → s.len.toNat > 17 →
    exec .bsPack s = .next { s with fault := 7, fcmd := 0x30000000 }) ∧
  (∀ s : State, s.fault = 0 → s.len.toNat ≤ 17 →
    ∃ t, exec .bsPack s = .next t ∧ t = { s with cw := t.cw } ∧
      (∀ k < 19, bufGet t.cw k = Ref.packedByte s.len (bufGet s.ibuf) k) ∧
      (∀ k, 19 ≤ k → bufGet t.cw k = bufGet s.cw k))

/-- 42_bitstream.md R154: the capacity check, before any write. -/
def Obligations.InputLengthLimitIsSeventeen : Prop :=
  ∀ s : State, s.fault = 0 → ∃ t, exec .bsPack s = .next t ∧
    (t.fault = 7 ↔ 18 ≤ s.len.toNat) ∧
    (18 ≤ s.len.toNat → t.cw = s.cw ∧ t = { s with fault := 7, fcmd := t.fcmd }) ∧
    (s.len.toNat ≤ 17 → t.fault = 0)

/-- The stream of 42_bitstream.md R150. Its mode value the spec marks "[derived: from the QR §8 example ...]". -/
def Obligations.PackedBitsAreTheStream : Prop :=
  ∀ s : State, s.fault = 0 → s.len.toNat ≤ 17 →
    ∃ t, exec .bsPack s = .next t ∧
      (List.range 19).flatMap (fun k => Ref.bitsMsb 8 (bufGet t.cw k).toNat) = Ref.stream s.len.toNat (bufGet s.ibuf)

/-- 43_matrix.md R179 with the finder patterns of R171: ring at distance 3, light ring at distance 2, centre. The pattern and the timing phase the spec marks "[from general knowledge, not in source]" (log entry 11). -/
def Obligations.MxSeedDrawsFindersAndTimingOnly : Prop :=
  Ref.DecodesAs 0x40000000 0xFFFFFFFF (fun _ _ => .mxSeed) ∧
  ∀ s : State, s.fault = 0 →
    ∃ t, exec .mxSeed s = .next t ∧ t = { s with grid := t.grid } ∧
      (∀ r < 21, ∀ c < 21, gridGet t.grid r c = Ref.seededModule r c) ∧ Ref.darkCount t.grid = 105

/-- The zigzag of 43_matrix.md R180, R181 against the placement map of R182, which the spec marks "[derived: from rule R180 by evaluation]". -/
def Obligations.MxPlacePutsEachCodewordBitAtItsModule : Prop :=
  Ref.DecodesAs 0x41000000 0xFFFFFFFF (fun _ _ => .mxPlace) ∧
  (∀ r < 21, ∀ c < 21, Ref.inRegion r c = true ↔ ∃ k < 26, ∃ b < 8, Ref.moduleOf k b = (r, c)) ∧
  ∀ s : State, s.fault = 0 → RomFixed s →
    ∃ t, exec .mxPlace s = .next t ∧ t = { s with grid := t.grid } ∧
      (∀ k < 26, ∀ b < 8, gridGet t.grid (Ref.moduleOf k b).1 (Ref.moduleOf k b).2 = (bufGet s.cw k).extractLsb' b 1) ∧
      (∀ r c, Ref.inRegion r c = false → gridGet t.grid r c = gridGet s.grid r c)

/-- 44_mask_format.md R200 and R201, the involution included. -/
def Obligations.MkMask0InvertsEvenRegionModules : Prop :=
  Ref.DecodesAs 0x50000000 0xFFFFFFFF (fun _ _ => .mkMask0) ∧
  ∀ s : State, s.fault = 0 → RomFixed s →
    ∃ t, exec .mkMask0 s = .next t ∧ t = { s with grid := t.grid } ∧
      (∀ r c, gridGet t.grid r c
        = if Ref.inRegion r c = true ∧ (r + c) % 2 = 0 then gridGet s.grid r c ^^^ 1 else gridGet s.grid r c) ∧
      exec .mkMask0 t = .next s

/-- 44_mask_format.md R203, R204, R206, R207 and R208. The word of R202 and the order of R205 the spec marks "[from general knowledge, not in source]" (log entry 11). -/
def Obligations.FwWriteWritesBothPathsAndTheDarkModule : Prop :=
  Ref.DecodesAs 0x51000000 0xFFFFFFFF (fun _ _ => .fwWrite) ∧
  ∀ s : State, s.fault = 0 → RomFixed s →
    ∃ t, exec .fwWrite s = .next t ∧ t = { s with grid := t.grid } ∧
      (∀ k < 15, ∀ path ∈ [Ref.path1, Ref.path2],
        gridGet t.grid (path.getD k (0, 0)).1 (path.getD k (0, 0)).2 = (0x77C4#15).extractLsb' k 1) ∧
      Ref.readBack t.grid Ref.path1 = 0x77C4 ∧ Ref.readBack t.grid Ref.path2 = 0x77C4 ∧
      gridGet t.grid 13 8 = 1 ∧
      (∀ r c, Ref.isFormat r c = false → gridGet t.grid r c = gridGet s.grid r c)

/-- The pipeline of 45_pipeline.md R220 as one result. The placement map and the closed forms are the spec's derivations, and the generator and the format word its own supply (log entry 11). -/
def Obligations.RunProducesTheSymbolOfTheInput : Prop :=
  Ref.DecodesAs 0x60000000 0xFFFFFFFF (fun _ _ => .run) ∧
  (∀ s : State, s.fault = 0 → s.len.toNat > 17 → exec .run s = .next { s with fault := 7, fcmd := 0x60000000 }) ∧
  (∀ s : State, s.fault = 0 → RomFixed s → s.len.toNat ≤ 17 →
    ∃ t, exec .run s = .next t ∧ t = { s with cw := t.cw, grid := t.grid } ∧
      (∀ k < 19, bufGet t.cw k = Ref.packedByte s.len (bufGet s.ibuf) k) ∧
      (∀ j < 7, bufGet t.cw (19 + j) = (Ref.rsEc (Ref.cwList t 19)).getD j 0) ∧
      (∀ k < 26, ∀ b < 8, gridGet t.grid (Ref.moduleOf k b).1 (Ref.moduleOf k b).2
        = (bufGet t.cw k).extractLsb' b 1 ^^^ Ref.maskBit (Ref.moduleOf k b).1 (Ref.moduleOf k b).2) ∧
      Ref.readBack t.grid Ref.path1 = 0x77C4 ∧ Ref.readBack t.grid Ref.path2 = 0x77C4 ∧ gridGet t.grid 13 8 = 1 ∧
      (∀ r < 21, ∀ c < 21, Ref.inRegion r c = false → Ref.isFormat r c = false →
        gridGet t.grid r c = Ref.seededModule r c))

/-- The equivalence of 45_pipeline.md R221, which the spec marks "[derived: from rules R220, ...]". -/
def Obligations.RunEqualsTheSixCommands : Prop :=
  ∀ s : State, s.fault = 0 →
    (s.len.toNat ≤ 17 → (∃ t, exec .run s = .next t) ∧ exec .run s =
      [Instr.bsPack, .rsEnc 19 7, .mxPlace, .mkMask0, .fwWrite].foldl Ref.thenExec (exec .mxSeed s)) ∧
    (s.len.toNat > 17 → exec .run s = .next { s with fault := 7, fcmd := 0x60000000 } ∧
      ∃ g, exec .mxSeed s = .next { s with grid := g } ∧
      [Instr.bsPack, .rsEnc 19 7, .mxPlace, .mkMask0, .fwWrite].foldl Ref.thenExec (exec .mxSeed s)
        = .next { s with grid := g, fault := 7, fcmd := 0x30000000 })

/-- What 45_pipeline.md R222 says of a completed RUN, which it marks "[derived: from rule R220 ...]"; bytes at and above LEN have no effect (R267). -/
def Obligations.RunDependsOnlyOnTheInput : Prop :=
  ∀ s₁ s₂ : State, s₁.fault = 0 → s₂.fault = 0 → RomFixed s₁ → RomFixed s₂ → s₁.len = s₂.len → s₁.len.toNat ≤ 17 →
    (∀ i < s₁.len.toNat, bufGet s₁.ibuf i = bufGet s₂.ibuf i) →
    ∃ t₁ t₂, exec .run s₁ = .next t₁ ∧ exec .run s₂ = .next t₂ ∧ t₁.grid = t₂.grid ∧ t₁.cw = t₂.cw

/-- A corner case of 45_pipeline.md R220: RUN issued twice with the same input gives the same state. -/
def Obligations.RunTwiceIsRunOnce : Prop :=
  ∀ s t : State, RomFixed s → exec .run s = .next t → exec .run t = .next t

/-- The writes of 20_memory.md R67: the frame of every command, through the host's reads of every byte address. A command that faults changes only FAULT and FCMD. -/
def Obligations.CommandsWriteOnlyTheLocationsOfTheirRules : Prop :=
  ∀ (i : Instr) (s t : State), RomFixed s → exec i s = .next t →
    (∀ (a : Addr) (size : Nat), (∀ l, locate a size = some l → Ref.mayWrite i l = false) →
      memRead t a size = memRead s a size) ∧
    (t.fault ≠ s.fault → t = { s with fault := t.fault, fcmd := t.fcmd }) ∧
    t.toRom = s.toRom ∧ t.inputs = s.inputs ∧ t.rdata = s.rdata

/-- 60_exceptions.md R231 (every code and condition) and R232 (what a fault writes). -/
def Obligations.CmdWriteRaisesExactlyTheTableFaults : Prop :=
  ∀ (s : State) (w : Word) (rest : List HostEvent), Ref.CmdWrite s w rest → s.fault = 0 →
    ∃ t, step s = .next t ∧
      t.fault = (match decode w with | .error _ => 1 | .ok i => Ref.raises i s) ∧
      (t.fault ≠ 0 → t = { Ref.served s rest with fault := t.fault, fcmd := w }) ∧
      (t.fault = 0 → t.fcmd = s.fcmd) ∧ t.fault.toNat ≤ 7

/-- 60_exceptions.md R234, over every host event. -/
def Obligations.OnlyResetLeavesTheFaultedState : Prop :=
  ∀ s t : State, s.fault ≠ 0 → step s = .next t →
    (s.inputs.head? ≠ some .reset → t.fault = s.fault ∧ t.fcmd = s.fcmd) ∧
    (s.inputs.head? = some .reset → t.fault = 0 ∧ t.fcmd = 0)

/-- 43_matrix.md R178, which the spec marks "[derived: from rules R180, R181 ...]". -/
def Obligations.OnlySeedFormatAndRunWriteStructuralModules : Prop :=
  ∀ (i : Instr) (s t : State), i ≠ .mxSeed → i ≠ .fwWrite → i ≠ .run → RomFixed s → exec i s = .next t →
    ∀ r c, Ref.inRegion r c = false → gridGet t.grid r c = gridGet s.grid r c

/-- The lasting half of 44_mask_format.md R208, which the spec marks "[derived: from rules R178, R205, R207]". -/
def Obligations.FormatWordSurvivesEveryCommandButSeed : Prop :=
  ∀ (i : Instr) (s t : State), i ≠ .mxSeed → RomFixed s →
    Ref.readBack s.grid Ref.path1 = 0x77C4 → Ref.readBack s.grid Ref.path2 = 0x77C4 → gridGet s.grid 13 8 = 1 →
    exec i s = .next t →
      Ref.readBack t.grid Ref.path1 = 0x77C4 ∧ Ref.readBack t.grid Ref.path2 = 0x77C4 ∧ gridGet t.grid 13 8 = 1

/-- 70_reset_and_hazards.md R265, which the spec marks "[derived: from the write and read sets ...]", for commands that raise no fault (a fault refuses the later one). -/
def Obligations.IndependentCommandsCommute : Prop :=
  ∀ (i j : Instr) (s : State), Ref.commuting i j = true → s.fault = 0 → RomFixed s →
    Ref.raises i s = 0 → Ref.raises j s = 0 →
    ∃ t u v, exec i s = .next t ∧ exec j t = .next u ∧ exec j s = .next v ∧ exec i v = .next u

/-- Rows of the hazard table of 70_reset_and_hazards.md R264, which the spec marks "[derived: ...]": a mask before placement is lost, and seeding erases earlier work. -/
def Obligations.PlacementOverwritesEarlierRegionWork : Prop :=
  ∀ s : State, s.fault = 0 → RomFixed s →
    (∃ t, exec .mxPlace s = .next t ∧ Ref.thenExec (exec .mkMask0 s) .mxPlace = .next t ∧
      Ref.thenExec (exec .mxPlace s) .mxPlace = .next t) ∧
    (∃ t, exec .mxSeed s = .next t ∧ ∀ i ∈ [Instr.mxPlace, .mkMask0, .fwWrite],
      Ref.thenExec (exec i s) .mxSeed = .next t)

/-- 30_encoding.md R87, LOADSTR: at most 17 bytes to IBUF and the true length to LEN. That the events wait in a list is the model's choice (log entry 2). -/
def Obligations.LoadStringFillsTheInputBuffer : Prop :=
  ∀ (s : State) (str : List Byte) (es rest : List HostEvent), (ScriptStatement.loadStr str).events = some es →
    s.inputs = es ++ rest →
    ∃ t, Host.Core.run core es.length s = .next t ∧
      t = { Ref.served s rest with len := t.len, ibuf := t.ibuf } ∧ t.len.toNat = str.length ∧
      (∀ i < 17, bufGet t.ibuf i = if h : i < str.length then str[i] else bufGet s.ibuf i)

/-- The invariant of EveryStepKeepsSoundness at reset. -/
def Obligations.ResetStateIsSound : Prop :=
  Sound State.reset

/-- ROM is constant (10_state.md R29, R30; 20_memory.md R66), and FAULT and FCMD always tell which word raised which fault (60_exceptions.md R231, R232, R234). The invariant as a whole is the model's own way to say it. -/
def Obligations.EveryStepKeepsSoundness : Prop :=
  ∀ s t : State, Sound s → step s = .next t → Sound t
end

