-- ==== Sys2Proof/Laws/Buffer.lean ====
section
/-! SUPPORT. Read after write on byte buffers, and buffers equal entry by entry. -/

namespace Sys2Proof.Machine

variable {n : Nat}

/-- Reading after a write: the written entry, or the old one. -/
theorem bufGet_bufPut (v : Vector Byte n) (i j : Nat) (x : Byte) :
    bufGet (bufPut v i x) j = if i = j ∧ i < n then x else bufGet v j := by
  unfold bufGet bufPut
  by_cases hi : i < n <;> by_cases hj : j < n <;> simp [hi, hj, Vector.getElem_set]
  intro h
  omega

@[simp] theorem bufGet_bufPut_same (v : Vector Byte n) {i : Nat} (x : Byte) (h : i < n) :
    bufGet (bufPut v i x) i = x := by
  simp [bufGet_bufPut, h]

@[simp] theorem bufGet_bufPut_ne (v : Vector Byte n) {i j : Nat} (x : Byte) (h : i ≠ j) :
    bufGet (bufPut v i x) j = bufGet v j := by
  simp [bufGet_bufPut, h]

/-- An index outside the buffer reads as 0. -/
@[simp] theorem bufGet_of_le (v : Vector Byte n) {i : Nat} (h : n ≤ i) : bufGet v i = 0 := by
  simp [bufGet, Nat.not_lt.mpr h]

/-- Two buffers with the same entries are equal. -/
theorem buf_ext {v w : Vector Byte n} (h : ∀ i < n, bufGet v i = bufGet w i) : v = w := by
  apply Vector.ext
  intro i hi
  simpa [bufGet, hi] using h i hi

/-- A loop that writes entry `base + k` for `k` = 0..m-1: what each entry holds afterwards. -/
theorem bufGet_fill (base m : Nat) (f : Nat → Byte) (v : Vector Byte n) (j : Nat) :
    bufGet ((List.range m).foldl (fun v k => bufPut v (base + k) (f k)) v) j
      = if base ≤ j ∧ j < base + m ∧ j < n then f (j - base) else bufGet v j := by
  induction m with
  | zero =>
    have : ¬ (base ≤ j ∧ j < base + 0 ∧ j < n) := by omega
    simp only [List.range_zero, List.foldl_nil, if_neg this]
  | succ m ih =>
    rw [List.range_succ, List.foldl_append, List.foldl_cons, List.foldl_nil, bufGet_bufPut, ih]
    by_cases hj : base + m = j
    · subst hj
      by_cases hn : base + m < n
      · simp [hn]
      · simp [hn, Nat.not_lt.mp hn]
    · have hiff : (base ≤ j ∧ j < base + (m + 1) ∧ j < n) ↔ (base ≤ j ∧ j < base + m ∧ j < n) := by omega
      simp [hj, hiff]

end Sys2Proof.Machine
end

