-- ==== Sys2Proof/Laws/Encoding.lean ====
section
/-! SUPPORT. The fields of a built command word, and a word rebuilt from its fields. -/

namespace Sys2Proof

variable (op a b : Byte) (w : Word)

theorem commandWord_toNat : (commandWord op a b).toNat = op.toNat * 2 ^ 24 + a.toNat * 2 ^ 8 + b.toNat := by
  simp only [commandWord, BitVec.toNat_ofNat]
  omega

theorem fieldOp_toNat : (fieldOp w).toNat = w.toNat / 2 ^ 24 := by
  simp only [fieldOp, BitVec.extractLsb'_toNat, Nat.shiftRight_eq_div_pow]
  omega

theorem fieldRsv_toNat : (fieldRsv w).toNat = w.toNat / 2 ^ 16 % 2 ^ 8 := by
  simp only [fieldRsv, BitVec.extractLsb'_toNat, Nat.shiftRight_eq_div_pow]

theorem fieldA_toNat : (fieldA w).toNat = w.toNat / 2 ^ 8 % 2 ^ 8 := by
  simp only [fieldA, BitVec.extractLsb'_toNat, Nat.shiftRight_eq_div_pow]

theorem fieldB_toNat : (fieldB w).toNat = w.toNat % 2 ^ 8 := by
  simp only [fieldB, BitVec.extractLsb'_toNat, Nat.shiftRight_zero]

@[simp] theorem fieldOp_commandWord : fieldOp (commandWord op a b) = op := by
  apply BitVec.eq_of_toNat_eq
  rw [fieldOp_toNat, commandWord_toNat]
  omega

@[simp] theorem fieldRsv_commandWord : fieldRsv (commandWord op a b) = 0 := by
  apply BitVec.eq_of_toNat_eq
  rw [fieldRsv_toNat, commandWord_toNat]
  simp only [BitVec.ofNat_eq_ofNat, BitVec.toNat_ofNat]
  omega

@[simp] theorem fieldA_commandWord : fieldA (commandWord op a b) = a := by
  apply BitVec.eq_of_toNat_eq
  rw [fieldA_toNat, commandWord_toNat]
  omega

@[simp] theorem fieldB_commandWord : fieldB (commandWord op a b) = b := by
  apply BitVec.eq_of_toNat_eq
  rw [fieldB_toNat, commandWord_toNat]
  omega

/-- A word whose reserved field is 0 is the word of its three other fields. -/
theorem commandWord_fields {w : Word} (h : fieldRsv w = 0) :
    commandWord (fieldOp w) (fieldA w) (fieldB w) = w := by
  apply BitVec.eq_of_toNat_eq
  have h' := congrArg BitVec.toNat h
  rw [fieldRsv_toNat] at h'
  simp only [BitVec.ofNat_eq_ofNat, BitVec.toNat_ofNat] at h'
  rw [commandWord_toNat, fieldOp_toNat, fieldA_toNat, fieldB_toNat]
  omega

/-- The decoder on a built word reads the fields it was built from. -/
theorem decode_commandWord : decode (commandWord op a b) = decodeFields op a b := by
  simp [decode]

end Sys2Proof
end

