-- ==== Sys2Proof/Laws/State.lean ====
section
/-! SUPPORT. What each named update of the state leaves in each field, so that no later proof unfolds a record
update. -/

namespace Sys2Proof.Machine

variable (s : State)

@[simp] theorem State.setRes_toRom (v : Byte) : (s.setRes v).toRom = s.toRom := rfl
@[simp] theorem State.setRes_len (v : Byte) : (s.setRes v).len = s.len := rfl
@[simp] theorem State.setRes_res (v : Byte) : (s.setRes v).res = v := rfl
@[simp] theorem State.setRes_fault (v : Byte) : (s.setRes v).fault = s.fault := rfl
@[simp] theorem State.setRes_fcmd (v : Byte) : (s.setRes v).fcmd = s.fcmd := rfl
@[simp] theorem State.setRes_ibuf (v : Byte) : (s.setRes v).ibuf = s.ibuf := rfl
@[simp] theorem State.setRes_cw (v : Byte) : (s.setRes v).cw = s.cw := rfl
@[simp] theorem State.setRes_grid (v : Byte) : (s.setRes v).grid = s.grid := rfl
@[simp] theorem State.setRes_inputs (v : Byte) : (s.setRes v).inputs = s.inputs := rfl
@[simp] theorem State.setRes_rdata (v : Byte) : (s.setRes v).rdata = s.rdata := rfl

@[simp] theorem State.setLen_toRom (v : Byte) : (s.setLen v).toRom = s.toRom := rfl
@[simp] theorem State.setLen_len (v : Byte) : (s.setLen v).len = v := rfl
@[simp] theorem State.setLen_res (v : Byte) : (s.setLen v).res = s.res := rfl
@[simp] theorem State.setLen_fault (v : Byte) : (s.setLen v).fault = s.fault := rfl
@[simp] theorem State.setLen_fcmd (v : Byte) : (s.setLen v).fcmd = s.fcmd := rfl
@[simp] theorem State.setLen_ibuf (v : Byte) : (s.setLen v).ibuf = s.ibuf := rfl
@[simp] theorem State.setLen_cw (v : Byte) : (s.setLen v).cw = s.cw := rfl
@[simp] theorem State.setLen_grid (v : Byte) : (s.setLen v).grid = s.grid := rfl
@[simp] theorem State.setLen_inputs (v : Byte) : (s.setLen v).inputs = s.inputs := rfl
@[simp] theorem State.setLen_rdata (v : Byte) : (s.setLen v).rdata = s.rdata := rfl

@[simp] theorem State.setIbuf_toRom (v : Vector Byte 17) : (s.setIbuf v).toRom = s.toRom := rfl
@[simp] theorem State.setIbuf_len (v : Vector Byte 17) : (s.setIbuf v).len = s.len := rfl
@[simp] theorem State.setIbuf_res (v : Vector Byte 17) : (s.setIbuf v).res = s.res := rfl
@[simp] theorem State.setIbuf_fault (v : Vector Byte 17) : (s.setIbuf v).fault = s.fault := rfl
@[simp] theorem State.setIbuf_fcmd (v : Vector Byte 17) : (s.setIbuf v).fcmd = s.fcmd := rfl
@[simp] theorem State.setIbuf_ibuf (v : Vector Byte 17) : (s.setIbuf v).ibuf = v := rfl
@[simp] theorem State.setIbuf_cw (v : Vector Byte 17) : (s.setIbuf v).cw = s.cw := rfl
@[simp] theorem State.setIbuf_grid (v : Vector Byte 17) : (s.setIbuf v).grid = s.grid := rfl
@[simp] theorem State.setIbuf_inputs (v : Vector Byte 17) : (s.setIbuf v).inputs = s.inputs := rfl
@[simp] theorem State.setIbuf_rdata (v : Vector Byte 17) : (s.setIbuf v).rdata = s.rdata := rfl

@[simp] theorem State.setCw_toRom (v : Vector Byte 26) : (s.setCw v).toRom = s.toRom := rfl
@[simp] theorem State.setCw_len (v : Vector Byte 26) : (s.setCw v).len = s.len := rfl
@[simp] theorem State.setCw_res (v : Vector Byte 26) : (s.setCw v).res = s.res := rfl
@[simp] theorem State.setCw_fault (v : Vector Byte 26) : (s.setCw v).fault = s.fault := rfl
@[simp] theorem State.setCw_fcmd (v : Vector Byte 26) : (s.setCw v).fcmd = s.fcmd := rfl
@[simp] theorem State.setCw_ibuf (v : Vector Byte 26) : (s.setCw v).ibuf = s.ibuf := rfl
@[simp] theorem State.setCw_cw (v : Vector Byte 26) : (s.setCw v).cw = v := rfl
@[simp] theorem State.setCw_grid (v : Vector Byte 26) : (s.setCw v).grid = s.grid := rfl
@[simp] theorem State.setCw_inputs (v : Vector Byte 26) : (s.setCw v).inputs = s.inputs := rfl
@[simp] theorem State.setCw_rdata (v : Vector Byte 26) : (s.setCw v).rdata = s.rdata := rfl

@[simp] theorem State.setGrid_toRom (g : Grid) : (s.setGrid g).toRom = s.toRom := rfl
@[simp] theorem State.setGrid_len (g : Grid) : (s.setGrid g).len = s.len := rfl
@[simp] theorem State.setGrid_res (g : Grid) : (s.setGrid g).res = s.res := rfl
@[simp] theorem State.setGrid_fault (g : Grid) : (s.setGrid g).fault = s.fault := rfl
@[simp] theorem State.setGrid_fcmd (g : Grid) : (s.setGrid g).fcmd = s.fcmd := rfl
@[simp] theorem State.setGrid_ibuf (g : Grid) : (s.setGrid g).ibuf = s.ibuf := rfl
@[simp] theorem State.setGrid_cw (g : Grid) : (s.setGrid g).cw = s.cw := rfl
@[simp] theorem State.setGrid_grid (g : Grid) : (s.setGrid g).grid = g := rfl
@[simp] theorem State.setGrid_inputs (g : Grid) : (s.setGrid g).inputs = s.inputs := rfl
@[simp] theorem State.setGrid_rdata (g : Grid) : (s.setGrid g).rdata = s.rdata := rfl

@[simp] theorem State.raise_toRom (c : FaultCode) (w : Word) : (s.raise c w).toRom = s.toRom := rfl
@[simp] theorem State.raise_len (c : FaultCode) (w : Word) : (s.raise c w).len = s.len := rfl
@[simp] theorem State.raise_res (c : FaultCode) (w : Word) : (s.raise c w).res = s.res := rfl
@[simp] theorem State.raise_fault (c : FaultCode) (w : Word) : (s.raise c w).fault = c.code := rfl
@[simp] theorem State.raise_fcmd (c : FaultCode) (w : Word) : (s.raise c w).fcmd = w := rfl
@[simp] theorem State.raise_ibuf (c : FaultCode) (w : Word) : (s.raise c w).ibuf = s.ibuf := rfl
@[simp] theorem State.raise_cw (c : FaultCode) (w : Word) : (s.raise c w).cw = s.cw := rfl
@[simp] theorem State.raise_grid (c : FaultCode) (w : Word) : (s.raise c w).grid = s.grid := rfl
@[simp] theorem State.raise_inputs (c : FaultCode) (w : Word) : (s.raise c w).inputs = s.inputs := rfl
@[simp] theorem State.raise_rdata (c : FaultCode) (w : Word) : (s.raise c w).rdata = s.rdata := rfl

@[simp] theorem State.take_toRom (rest : List HostEvent) : (s.take rest).toRom = s.toRom := rfl
@[simp] theorem State.take_len (rest : List HostEvent) : (s.take rest).len = s.len := rfl
@[simp] theorem State.take_res (rest : List HostEvent) : (s.take rest).res = s.res := rfl
@[simp] theorem State.take_fault (rest : List HostEvent) : (s.take rest).fault = s.fault := rfl
@[simp] theorem State.take_fcmd (rest : List HostEvent) : (s.take rest).fcmd = s.fcmd := rfl
@[simp] theorem State.take_ibuf (rest : List HostEvent) : (s.take rest).ibuf = s.ibuf := rfl
@[simp] theorem State.take_cw (rest : List HostEvent) : (s.take rest).cw = s.cw := rfl
@[simp] theorem State.take_grid (rest : List HostEvent) : (s.take rest).grid = s.grid := rfl
@[simp] theorem State.take_inputs (rest : List HostEvent) : (s.take rest).inputs = rest := rfl
@[simp] theorem State.take_rdata (rest : List HostEvent) : (s.take rest).rdata = none := rfl

@[simp] theorem State.returns_toRom (v : Word) : (s.returns v).toRom = s.toRom := rfl
@[simp] theorem State.returns_len (v : Word) : (s.returns v).len = s.len := rfl
@[simp] theorem State.returns_res (v : Word) : (s.returns v).res = s.res := rfl
@[simp] theorem State.returns_fault (v : Word) : (s.returns v).fault = s.fault := rfl
@[simp] theorem State.returns_fcmd (v : Word) : (s.returns v).fcmd = s.fcmd := rfl
@[simp] theorem State.returns_ibuf (v : Word) : (s.returns v).ibuf = s.ibuf := rfl
@[simp] theorem State.returns_cw (v : Word) : (s.returns v).cw = s.cw := rfl
@[simp] theorem State.returns_grid (v : Word) : (s.returns v).grid = s.grid := rfl
@[simp] theorem State.returns_inputs (v : Word) : (s.returns v).inputs = s.inputs := rfl
@[simp] theorem State.returns_rdata (v : Word) : (s.returns v).rdata = some v := rfl

@[simp] theorem State.resetBy_toRom : (s.resetBy).toRom = s.toRom := rfl
@[simp] theorem State.resetBy_len : (s.resetBy).len = 0 := rfl
@[simp] theorem State.resetBy_res : (s.resetBy).res = 0 := rfl
@[simp] theorem State.resetBy_fault : (s.resetBy).fault = 0 := rfl
@[simp] theorem State.resetBy_fcmd : (s.resetBy).fcmd = 0 := rfl
@[simp] theorem State.resetBy_ibuf : (s.resetBy).ibuf = Vector.replicate 17 0 := rfl
@[simp] theorem State.resetBy_cw : (s.resetBy).cw = Vector.replicate 26 0 := rfl
@[simp] theorem State.resetBy_grid : (s.resetBy).grid = blankGrid := rfl
@[simp] theorem State.resetBy_inputs : (s.resetBy).inputs = s.inputs := rfl
@[simp] theorem State.resetBy_rdata : (s.resetBy).rdata = none := rfl

@[simp] theorem State.faulted_eq : s.faulted = (s.fault != 0) := rfl

end Sys2Proof.Machine
end

