-- ==== Sys2Proof/Laws/Ops.lean ====
section
/-! SUPPORT. What the shared operations can do: running a command, and raising a fault. -/

namespace Sys2Proof.Machine

/-- While `FAULT` is 0 a command has its effect. -/
theorem command_live {s : State} (h : s.fault = 0) (effect : State) : command s effect = .next effect := by
  simp [command, h]

/-- While `FAULT` is not 0 a command is refused: accepted, with no effect. -/
theorem command_refused {s : State} (h : s.fault ≠ 0) (effect : State) : command s effect = .next s := by
  have h' : ¬ s.fault = 0#4 := h
  simp [command, h']

/-- Everything a command can answer. -/
theorem command_cases {s effect t : State} (h : command s effect = .next t) :
    (s.fault ≠ 0 ∧ t = s) ∨ (s.fault = 0 ∧ t = effect) := by
  by_cases hf : s.fault = 0
  · rw [command_live hf] at h
    cases h
    exact .inr ⟨hf, rfl⟩
  · rw [command_refused hf] at h
    cases h
    exact .inl ⟨hf, rfl⟩

/-- Every fault code of R231 is non-zero, so a raised fault refuses every later command. -/
@[simp] theorem FaultCode.code_ne_zero (c : FaultCode) : c.code ≠ 0 := by
  cases c <;> decide

/-- Codes 8 to 15 are never raised. -/
theorem FaultCode.code_le_seven (c : FaultCode) : c.code.toNat ≤ 7 := by
  cases c <;> decide

/-- Raising changes `FAULT` and `FCMD` and nothing else. -/
theorem State.raise_eq (s : State) (c : FaultCode) (w : Word) :
    s.raise c w = { s with fault := c.code, fcmd := w } := rfl

end Sys2Proof.Machine
end

