-- ==== Sys2Proof/Laws/Exec.lean ====
section
/-! SUPPORT. One equation per command: `exec` is the guarded effect of the command's rule. -/

namespace Sys2Proof.Machine

variable (s : State)

theorem exec_gfAdd (a b : Byte) : exec (.gfAdd a b) s = command s (s.setRes (a ^^^ b)) := rfl

theorem exec_gfSub (a b : Byte) : exec (.gfSub a b) s = command s (s.setRes (a ^^^ b)) := rfl

theorem exec_gfMul (a b : Byte) : exec (.gfMul a b) s = command s (s.setRes (gfMul s.toRom a b)) := rfl

/-- A quotient goes to `RES`. -/
theorem exec_gfDiv_some {a b q : Byte} (h : gfDiv s.toRom a b = some q) :
    exec (.gfDiv a b) s = command s (s.setRes q) := by
  simp [exec, execGfDiv, operandElement, h]

/-- No quotient raises DivisionByZero. -/
theorem exec_gfDiv_none {a b : Byte} (h : gfDiv s.toRom a b = none) :
    exec (.gfDiv a b) s = command s (s.raise .divisionByZero (encode (.gfDiv a b))) := by
  simp [exec, execGfDiv, operandElement, h]

theorem exec_gfExp (a : Byte) : exec (.gfExp a) s = command s (s.setRes (tableGet s.exp a.toNat)) := rfl

theorem exec_gfLog (a : Byte) : exec (.gfLog a) s = command s (s.setRes (tableGet s.log a.toNat)) := rfl

/-- The first check that holds is the fault raised. -/
theorem exec_rsEnc_some {n e : Byte} {c : FaultCode} (h : rsCheck n.toNat e.toNat = some c) :
    exec (.rsEnc n e) s = command s (s.raise c (encode (.rsEnc n e))) := by
  simp [exec, execRsEnc, operandNat, h]

/-- With no check holding the remainder is written. -/
theorem exec_rsEnc_none {n e : Byte} (h : rsCheck n.toNat e.toNat = none) :
    exec (.rsEnc n e) s = command s (rsBody n.toNat s) := by
  simp [exec, execRsEnc, operandNat, h]

theorem exec_bsPack : exec .bsPack s
    = command s (if s.len.toNat > 17 then s.raise .inputTooLong (encode .bsPack) else packBody s) := rfl

theorem exec_mxSeed : exec .mxSeed s = command s (seedBody s) := rfl

theorem exec_mxPlace : exec .mxPlace s = command s (placeBody s) := rfl

theorem exec_mkMask0 : exec .mkMask0 s = command s (maskBody s) := rfl

theorem exec_fwWrite : exec .fwWrite s = command s (formatBody s) := rfl

theorem exec_run : exec .run s
    = command s (if s.len.toNat > 17 then s.raise .inputTooLong (encode .run) else runBody s) := rfl

end Sys2Proof.Machine
end

