-- ==== Sys2Proof/Laws/Grid.lean ====
section
/-! SUPPORT. Read after write on the matrix of modules, matrices equal module by module, and what a loop over distinct
modules leaves. -/

namespace Sys2Proof.Machine

/-- Reading a column after writing one. -/
theorem rowGet_rowPut (row : Row) (v : Module) {c d : Nat} (hc : c < 21) (hd : d < 21) :
    rowGet (rowPut row c v) d = if c = d then v else rowGet row d := by
  apply BitVec.eq_of_getLsbD_eq
  intro i hi
  obtain rfl : i = 0 := by omega
  have hd' : 20 - d < 21 := by omega
  have e : (1#21 <<< (20 - c)).getLsbD (20 - d) = decide (c = d) := by
    by_cases h : c = d
    · subst h
      simp [hd']
    · by_cases h2 : 20 - d < 20 - c
      · simp [BitVec.getLsbD_shiftLeft, h2, h]
      · have h3 : 20 - d - (20 - c) ≠ 0 := by omega
        simp [BitVec.getLsbD_shiftLeft, h, BitVec.getLsbD_one, h3]
  have e2 : ((v.setWidth 21) <<< (20 - c)).getLsbD (20 - d) = (decide (c = d) && v.getLsbD 0) := by
    by_cases h : c = d
    · subst h
      simp [hd']
    · by_cases h2 : 20 - d < 20 - c
      · simp [BitVec.getLsbD_shiftLeft, h2, h]
      · have h3 : 1 ≤ 20 - d - (20 - c) := by omega
        simp [BitVec.getLsbD_shiftLeft, h, BitVec.getLsbD_of_ge _ _ h3]
  by_cases h : c = d
  · subst h
    simp only [rowGet, rowPut, BitVec.getLsbD_extractLsb', BitVec.getLsbD_or, BitVec.getLsbD_and,
      BitVec.getLsbD_not, Nat.add_zero, e, e2]
    simp
  · simp only [rowGet, rowPut, BitVec.getLsbD_extractLsb', BitVec.getLsbD_or, BitVec.getLsbD_and,
      BitVec.getLsbD_not, Nat.add_zero, e, e2, h, if_false]
    simp [hd']

/-- Two rows with the same columns are equal. -/
theorem row_ext {x y : Row} (h : ∀ c < 21, rowGet x c = rowGet y c) : x = y := by
  apply BitVec.eq_of_getLsbD_eq
  intro i hi
  have := congrArg (fun v => v.getLsbD 0) (h (20 - i) (by omega))
  simpa [rowGet, show 20 - (20 - i) = i by omega] using this

/-- Reading a module after writing one. -/
theorem gridGet_gridPut (g : Grid) (v : Module) (r c r' c' : Nat) :
    gridGet (gridPut g r c v) r' c'
      = if r = r' ∧ c = c' ∧ r < 21 ∧ c < 21 then v else gridGet g r' c' := by
  by_cases h : r < 21 ∧ c < 21
  · by_cases h' : r' < 21 ∧ c' < 21
    · by_cases hr : r = r'
      · subst hr
        simp [gridGet, gridPut, h, h', rowGet_rowPut _ _ h.2 h'.2]
      · simp [gridGet, gridPut, h, h', hr]
    · have : ¬ (r = r' ∧ c = c' ∧ r < 21 ∧ c < 21) := by omega
      rw [if_neg this]
      simp only [gridGet, dif_neg h']
  · have : ¬ (r = r' ∧ c = c' ∧ r < 21 ∧ c < 21) := by omega
    rw [if_neg this]
    simp only [gridPut, dif_neg h]

@[simp] theorem gridGet_gridPut_same (g : Grid) (v : Module) {r c : Nat} (hr : r < 21) (hc : c < 21) :
    gridGet (gridPut g r c v) r c = v := by
  simp [gridGet_gridPut, hr, hc]

/-- Two matrices with the same modules are equal. -/
theorem grid_ext {g h : Grid} (e : ∀ r < 21, ∀ c < 21, gridGet g r c = gridGet h r c) : g = h := by
  apply Vector.ext
  intro r hr
  apply row_ext
  intro c hc
  simpa [gridGet, hr, hc] using e r hr c hc

@[simp] theorem gridGet_blankGrid (r c : Nat) : gridGet blankGrid r c = 0 := by
  by_cases h : r < 21 ∧ c < 21
  · simp [gridGet, blankGrid, h, rowGet]
  · simp only [gridGet, dif_neg h]

theorem mem_allModules {r c : Nat} : (r, c) ∈ allModules ↔ r < 21 ∧ c < 21 := by
  simp [allModules]

theorem nodup_allModules : allModules.Nodup := by
  decide +kernel

/-- A loop that writes `f p (old module)` at each module `p` of a list of distinct modules where `on p` holds. -/
theorem gridGet_update_loop (on : Nat × Nat → Bool) (f : Nat × Nat → Module → Module) :
    ∀ (ps : List (Nat × Nat)) (_ : ps.Nodup) (_ : ∀ p ∈ ps, p.1 < 21 ∧ p.2 < 21) (g : Grid) (r c : Nat),
      gridGet (ps.foldl (fun g p => if on p then gridPut g p.1 p.2 (f p (gridGet g p.1 p.2)) else g) g) r c
        = if (r, c) ∈ ps ∧ on (r, c) then f (r, c) (gridGet g r c) else gridGet g r c
  | [], _, _, g, r, c => by simp
  | p :: ps, hn, hb, g, r, c => by
    obtain ⟨hp, hn'⟩ := List.nodup_cons.mp hn
    have hb' : ∀ q ∈ ps, q.1 < 21 ∧ q.2 < 21 := fun q hq => hb q (List.mem_cons_of_mem _ hq)
    have hpb := hb p List.mem_cons_self
    rw [List.foldl_cons, gridGet_update_loop on f ps hn' hb']
    by_cases hon : on p
    · simp only [hon, if_true]
      by_cases e : p = (r, c)
      · subst e
        simp [hp, hon, hpb.1, hpb.2]
      · have hne : ¬ (p.1 = r ∧ p.2 = c ∧ p.1 < 21 ∧ p.2 < 21) := fun h => e (Prod.ext h.1 h.2.1)
        have hne' : ¬ (r, c) = p := fun h => e h.symm
        simp only [gridGet_gridPut, if_neg hne, List.mem_cons, hne', false_or]
    · by_cases e : p = (r, c)
      · subst e
        simp [hp, hon]
      · have hne' : ¬ (r, c) = p := fun h => e h.symm
        simp [hon, List.mem_cons, hne']

end Sys2Proof.Machine
end

