-- ==== Sys2Proof/Laws/Map.lean ====
section
/-! SUPPORT. The address map is one to one: each location is found at its address, and nowhere else. -/

namespace Sys2Proof.Machine

theorem entryAt_some {base count n : Nat} {k : Fin count} (h : entryAt base count n = some k) :
    base ≤ n ∧ n < base + 4 * count ∧ k.val = (n - base) / 4 := by
  unfold entryAt at h
  split at h
  · cases h
    exact ⟨by omega, by omega, rfl⟩
  · cases h

theorem entryAt_eq {base count : Nat} (k : Fin count) :
    entryAt base count (base + 4 * k.val) = some k := by
  have hk := k.isLt
  have h : base ≤ base + 4 * k.val ∧ base + 4 * k.val < base + 4 * count := by omega
  simp [entryAt, h]

theorem entryAt_none {base count n : Nat} (h : n < base ∨ base + 4 * count ≤ n) : entryAt base count n = none := by
  have : ¬ (base ≤ n ∧ n < base + 4 * count) := by omega
  simp [entryAt, this]

theorem linearIndex_lt (r c : Fin 21) : linearIndex r c < 441 := by
  have := r.isLt
  have := c.isLt
  unfold linearIndex
  omega

theorem modulePair_linearIndex (r c : Fin 21) : modulePair ⟨linearIndex r c, linearIndex_lt r c⟩ = (r, c) := by
  have := r.isLt
  have := c.isLt
  apply Prod.ext <;> apply Fin.ext <;> simp only [modulePair, linearIndex] <;> omega

theorem Location.offset_lt (l : Location) : l.offset < 0x26E4 := by
  cases l with
  | grid r c => have := linearIndex_lt r c; simp only [Location.offset]; omega
  | smask r c => have := linearIndex_lt r c; simp only [Location.offset]; omega
  | _ => simp only [Location.offset]; omega

theorem Location.offset_mod (l : Location) : l.offset % 4 = 0 := by
  cases l <;> simp only [Location.offset] <;> omega

/-- Past the six single registers, the map is a chain of runs. -/
theorem locateWord_runs {n : Nat} (h : 0x20 ≤ n) :
    locateWord n = ((entryAt 0x0020 8 n).map .gen
      <|> (entryAt 0x0040 17 n).map .ibuf
      <|> (entryAt 0x0100 26 n).map .cw
      <|> (entryAt 0x0400 256 n).map .exp
      <|> (entryAt 0x0800 256 n).map .log
      <|> (entryAt 0x1000 441 n).map (fun n => .grid (modulePair n).1 (modulePair n).2)
      <|> (entryAt 0x2000 441 n).map (fun n => .smask (modulePair n).1 (modulePair n).2)) := by
  unfold locateWord
  rw [if_neg (by omega), if_neg (by omega), if_neg (by omega), if_neg (by omega), if_neg (by omega),
    if_neg (by omega)]

/-- Each location stands at its own address. -/
theorem locateWord_offset (l : Location) : locateWord l.offset = some l := by
  cases l with
  | gen k =>
    have h := entryAt_eq (base := 0x20) k
    have := k.isLt
    simp only [Location.offset]
    rw [locateWord_runs (by omega), h]
    simp (disch := omega)
  | ibuf k =>
    have h := entryAt_eq (base := 0x40) k
    have := k.isLt
    simp only [Location.offset]
    rw [locateWord_runs (by omega), h]
    simp (disch := omega) [entryAt_none]
  | cw k =>
    have h := entryAt_eq (base := 0x100) k
    have := k.isLt
    simp only [Location.offset]
    rw [locateWord_runs (by omega), h]
    simp (disch := omega) [entryAt_none]
  | exp k =>
    have h := entryAt_eq (base := 0x400) k
    have := k.isLt
    simp only [Location.offset]
    rw [locateWord_runs (by omega), h]
    simp (disch := omega) [entryAt_none]
  | log k =>
    have h := entryAt_eq (base := 0x800) k
    have := k.isLt
    simp only [Location.offset]
    rw [locateWord_runs (by omega), h]
    simp (disch := omega) [entryAt_none]
  | grid r c =>
    have h := entryAt_eq (base := 0x1000) (⟨linearIndex r c, linearIndex_lt r c⟩ : Fin 441)
    have hp := modulePair_linearIndex r c
    have := linearIndex_lt r c
    simp only [Location.offset]
    rw [locateWord_runs (by omega), h]
    simp (disch := omega) [entryAt_none, hp]
  | smask r c =>
    have h := entryAt_eq (base := 0x2000) (⟨linearIndex r c, linearIndex_lt r c⟩ : Fin 441)
    have hp := modulePair_linearIndex r c
    have := linearIndex_lt r c
    simp only [Location.offset]
    rw [locateWord_runs (by omega), h]
    simp (disch := omega) [entryAt_none, hp]
  | _ => rfl

/-- An aligned byte address names at most the location that stands there. -/
theorem locateWord_some {n : Nat} {l : Location} (h : locateWord n = some l) (h4 : n % 4 = 0) : l.offset = n := by
  unfold locateWord at h
  repeat' split at h
  all_goals first
    | (cases h; simp only [Location.offset]; omega)
    | skip
  simp only [Option.orElse_eq_orElse, Option.orElse_eq_or, Option.or_eq_some_iff, Option.map_eq_some_iff] at h
  rcases h with ⟨k, hk, rfl⟩ | ⟨-, ⟨k, hk, rfl⟩ | ⟨-, ⟨k, hk, rfl⟩ | ⟨-, ⟨k, hk, rfl⟩ | ⟨-, ⟨k, hk, rfl⟩ |
    ⟨-, ⟨k, hk, rfl⟩ | ⟨-, ⟨k, hk, rfl⟩⟩⟩⟩⟩⟩⟩
  all_goals
    obtain ⟨h1, h2, h3⟩ := entryAt_some hk
    simp only [Location.offset, linearIndex, modulePair]
    omega

theorem Location.addr_toNat (l : Location) : l.addr.toNat = l.offset := by
  have := l.offset_lt
  simp only [Location.addr, BitVec.toNat_ofNat]
  omega

@[simp] theorem locate_addr (l : Location) : locate l.addr 4 = some l := by
  simp [locate, Location.addr_toNat, l.offset_mod, locateWord_offset]

/-- An access names a location exactly at its address, with size 4. -/
theorem locate_eq_some {a : Addr} {size : Nat} {l : Location} :
    locate a size = some l ↔ size = 4 ∧ a = l.addr := by
  constructor
  · intro h
    unfold locate at h
    split at h
    · rename_i hs
      refine ⟨hs.1, ?_⟩
      apply BitVec.eq_of_toNat_eq
      rw [Location.addr_toNat, locateWord_some h hs.2]
    · cases h
  · rintro ⟨rfl, rfl⟩
    exact locate_addr l

end Sys2Proof.Machine
end

