-- ==== Sys2Proof/Laws/PerInstr.lean ====
section
/-! SUPPORT. Facts stated per command. Family `TableRow`: the encoded word has the row's opcode and reserved field, and
0 in each operand field the command does not use (30_encoding.md R83). -/

namespace Sys2Proof.Laws.TableRow

/-- The word of `i` has its mnemonic's opcode, `RSV` = 0, and 0 in unused fields. -/
def Statement (i : Instr) : Prop :=
  fieldOp (encode i) = i.mnemonic.opcode ∧ fieldRsv (encode i) = 0 ∧
    (i.mnemonic.arity < 2 → fieldB (encode i) = 0) ∧ (i.mnemonic.arity < 1 → fieldA (encode i) = 0)

theorem gfAdd (a b : Byte) : Statement (.gfAdd a b) := by
  simp [Statement, encode, Instr.mnemonic, Mnemonic.opcode, Mnemonic.arity]

theorem gfSub (a b : Byte) : Statement (.gfSub a b) := by
  simp [Statement, encode, Instr.mnemonic, Mnemonic.opcode, Mnemonic.arity]

theorem gfMul (a b : Byte) : Statement (.gfMul a b) := by
  simp [Statement, encode, Instr.mnemonic, Mnemonic.opcode, Mnemonic.arity]

theorem gfDiv (a b : Byte) : Statement (.gfDiv a b) := by
  simp [Statement, encode, Instr.mnemonic, Mnemonic.opcode, Mnemonic.arity]

theorem gfExp (a : Byte) : Statement (.gfExp a) := by
  simp [Statement, encode, Instr.mnemonic, Mnemonic.opcode, Mnemonic.arity]

theorem gfLog (a : Byte) : Statement (.gfLog a) := by
  simp [Statement, encode, Instr.mnemonic, Mnemonic.opcode, Mnemonic.arity]

theorem rsEnc (n e : Byte) : Statement (.rsEnc n e) := by
  simp [Statement, encode, Instr.mnemonic, Mnemonic.opcode, Mnemonic.arity]

theorem bsPack : Statement .bsPack := by
  simp [Statement, encode, Instr.mnemonic, Mnemonic.opcode, Mnemonic.arity]

theorem mxSeed : Statement .mxSeed := by
  simp [Statement, encode, Instr.mnemonic, Mnemonic.opcode, Mnemonic.arity]

theorem mxPlace : Statement .mxPlace := by
  simp [Statement, encode, Instr.mnemonic, Mnemonic.opcode, Mnemonic.arity]

theorem mkMask0 : Statement .mkMask0 := by
  simp [Statement, encode, Instr.mnemonic, Mnemonic.opcode, Mnemonic.arity]

theorem fwWrite : Statement .fwWrite := by
  simp [Statement, encode, Instr.mnemonic, Mnemonic.opcode, Mnemonic.arity]

theorem run : Statement .run := by
  simp [Statement, encode, Instr.mnemonic, Mnemonic.opcode, Mnemonic.arity]

end Sys2Proof.Laws.TableRow
end

