-- ==== Sys2Proof/Laws/Step.lean ====
section
/-! SUPPORT. Everything a step can do: one inversion lemma for the served event and one for the step. -/

namespace Sys2Proof.Machine

/-- The load of a location reads nothing but the state. -/
theorem memRead_addr (s : State) (l : Location) : memRead s l.addr 4 = s.load l := by
  simp [memRead]

/-- Everything a command word can do. -/
theorem execWord_cases {w : Word} {s t : State} (h : execWord w s = .next t) :
    (s.fault ≠ 0 ∧ t = s) ∨
    (s.fault = 0 ∧ (∃ e, decode w = .error e) ∧ t = s.raise .illegalCommand w) ∨
    (s.fault = 0 ∧ ∃ i, decode w = .ok i ∧ exec i s = .next t) := by
  unfold execWord at h
  by_cases hf : s.fault = 0
  · simp only [State.faulted_eq, hf, bne_self_eq_false, Bool.false_eq_true, if_false] at h
    split at h
    · rename_i e he
      cases h
      exact .inr (.inl ⟨hf, ⟨e, he⟩, rfl⟩)
    · rename_i i hi
      exact .inr (.inr ⟨hf, i, hi, h⟩)
  · have hf' : ¬ s.fault = 0#4 := hf
    simp [hf'] at h
    exact .inl ⟨hf, h.symm⟩

/-- Everything a served event can do when it does not end in a bus error. -/
theorem serve_cases {e : HostEvent} {s t : State} (h : serve e s = .next t) :
    (∃ l v, e = .read l.addr 4 ∧ s.load l = some v ∧ t = s.returns v) ∨
    (∃ w, e = .write 0 4 w ∧ execWord w s = .next t) ∨
    (∃ l v, e = .write l.addr 4 v ∧ l ≠ .cmd ∧ s.store v l = some t) ∨
    (e = .reset ∧ t = s.resetBy) := by
  cases e with
  | read a size =>
    simp only [serve, serveRead, memRead] at h
    split at h
    · rename_i v hv
      obtain ⟨l, hl, hload⟩ := Option.bind_eq_some_iff.mp hv
      obtain ⟨rfl, rfl⟩ := locate_eq_some.mp hl
      cases h
      exact .inl ⟨l, v, rfl, hload, rfl⟩
    · cases h
  | write a size v =>
    simp only [serve, serveWrite] at h
    split at h
    · cases h
    · rename_i hl
      obtain ⟨rfl, rfl⟩ := locate_eq_some.mp hl
      exact .inr (.inl ⟨v, rfl, h⟩)
    · rename_i l hne hl
      obtain ⟨rfl, rfl⟩ := locate_eq_some.mp hl
      split at h
      · rename_i u hu
        cases h
        exact .inr (.inr (.inl ⟨l, v, rfl, hne, hu⟩))
      · cases h
  | reset =>
    cases h
    exact .inr (.inr (.inr ⟨rfl, rfl⟩))

/-- A step with nothing pending holds the state; otherwise it serves the next event. -/
theorem step_cases {s t : State} (h : step s = .next t) :
    (s.inputs = [] ∧ t = s) ∨ ∃ e rest, s.inputs = e :: rest ∧ serve e (s.take rest) = .next t := by
  unfold step at h
  split at h
  · rename_i hi
    cases h
    exact .inl ⟨hi, rfl⟩
  · rename_i e rest hi
    exact .inr ⟨e, rest, hi, h⟩

theorem step_of_inputs {s : State} {e : HostEvent} {rest : List HostEvent} (h : s.inputs = e :: rest) :
    step s = serve e (s.take rest) := by
  simp [step, h]

end Sys2Proof.Machine
end

