-- ==== Sys2Proof/Tests/Slice0.lean ====
section
/-! SUPPORT. The model's own tests. Expected values are those of 95_test_vectors.md and of the command rules' examples;
words are written out from the fields of 30_encoding.md R80 and the opcodes of R82. -/

namespace Sys2Proof.Tests

-- One theorem at a time: the kernel evaluations below would otherwise each hold a thread of the one-text build.
set_option Elab.async false

open Sys2Proof.Machine

/-- The answer is a next state with the property. -/
def after (o : Answer) (p : State → Bool) : Bool :=
  match o with
  | .next t => p t
  | .fault _ => false
  | .refused _ => false

/-- The answer is a bus error. -/
def isBusError (o : Answer) : Bool :=
  match o with
  | .next _ => false
  | .fault .busError => true
  | .refused _ => false

/-- The reset state with one host event pending. -/
def pending (e : HostEvent) : State := { State.reset with inputs := [e] }

/-- The reset state with the input bytes and length of a string (R26, R21). -/
def input (s : List Byte) : State :=
  { State.reset with
    len := BitVec.ofNat 8 s.length
    ibuf := s.zipIdx.foldl (fun v p => bufPut v p.2 p.1) State.reset.ibuf }

/-- The reset state with the first codewords set. -/
def codewords (d : List Byte) : State :=
  { State.reset with cw := d.zipIdx.foldl (fun v p => bufPut v p.2 p.1) State.reset.cw }

/-- A faulted state: FAULT = 2 from GF.DIV 5, 0. -/
def faultedState : State := { State.reset with res := 9, fault := 2, fcmd := 0x13000500 }

/-! ## Well-formed statements: an ill-formed one for each check (R86) -/

theorem test_wf_accepts : (CommandStatement.mk .rsEnc [19, 7]).wf = true := by decide
theorem test_wf_refuses_missing_operand : (CommandStatement.mk .gfAdd [1]).arityOk = false := by decide
theorem test_wf_refuses_extra_operand : (CommandStatement.mk .run [0]).wf = false := by decide
theorem test_wf_refuses_large_operand : (CommandStatement.mk .gfExp [256]).rangeOk = false := by decide
theorem test_wf_refused_statement_does_not_assemble : (CommandStatement.mk .gfExp [256]).assemble = none := by decide
theorem test_assemble_rsEnc : (CommandStatement.mk .rsEnc [19, 7]).assemble = some 0x20001307 := by decide

/-! ## Decoding: one word per constructor, and the kinds of illegal word -/

theorem test_decode_gfAdd : decode 0x100053CA = .ok (.gfAdd 0x53 0xCA) := by rfl
theorem test_decode_gfSub : decode 0x1100028E = .ok (.gfSub 0x02 0x8E) := by rfl
theorem test_decode_gfMul : decode 0x120053CA = .ok (.gfMul 0x53 0xCA) := by rfl
theorem test_decode_gfDiv : decode 0x13001D02 = .ok (.gfDiv 0x1D 0x02) := by rfl
theorem test_decode_gfExp : decode 0x14000800 = .ok (.gfExp 8) := by rfl
theorem test_decode_gfLog : decode 0x1500FF00 = .ok (.gfLog 0xFF) := by rfl
theorem test_decode_rsEnc : decode 0x20001307 = .ok (.rsEnc 19 7) := by rfl
theorem test_decode_bsPack : decode 0x30000000 = .ok .bsPack := by rfl
theorem test_decode_mxSeed : decode 0x40000000 = .ok .mxSeed := by rfl
theorem test_decode_mxPlace : decode 0x41000000 = .ok .mxPlace := by rfl
theorem test_decode_mkMask0 : decode 0x50000000 = .ok .mkMask0 := by rfl
theorem test_decode_fwWrite : decode 0x51000000 = .ok .fwWrite := by rfl
theorem test_decode_run : decode 0x60000000 = .ok .run := by rfl
theorem test_decode_zero_is_illegal : decode 0x00000000 = .error .unknownOpcode := by rfl
theorem test_decode_reserved_is_illegal : decode 0x12010000 = .error .reservedField := by rfl
theorem test_decode_exp_with_b_is_illegal : decode 0x14000801 = .error .unusedOperand := by rfl
theorem test_decode_place_with_a_is_illegal : decode 0x41000100 = .error .unusedOperand := by rfl
theorem test_decodeTableWord_run : decodeTableWord 32 0x60000000 = some .run := by rfl
theorem test_encode_gfDiv : encode (.gfDiv 0x05 0x00) = 0x13000500 := by decide

/-! ## Commands -/

theorem test_gfAdd : after (exec (.gfAdd 0x53 0xCA) State.reset) (fun t => t.res == 0x99) = true := by decide
theorem test_gfSub : after (exec (.gfSub 0x02 0x8E) State.reset) (fun t => t.res == 0x8C) = true := by decide
theorem test_gfMul : after (exec (.gfMul 0x53 0xCA) State.reset) (fun t => t.res == 0x8F) = true := by
  decide +kernel
theorem test_gfMul_reduces_the_index :
    after (exec (.gfMul 0xFF 0xFF) State.reset) (fun t => t.res == 0xE2) = true := by decide +kernel
theorem test_gfDiv : after (exec (.gfDiv 0x01 0x02) State.reset) (fun t => t.res == 0x8E) = true := by
  decide +kernel
theorem test_gfDiv_zero_by_zero_faults :
    after (exec (.gfDiv 0x00 0x00) { State.reset with res := 9 })
      (fun t => t.fault == 2 && t.fcmd == 0x13000000 && t.res == 9) = true := by decide +kernel
theorem test_gfExp_circular : after (exec (.gfExp 255) State.reset) (fun t => t.res == 0x01) = true := by
  decide +kernel
theorem test_gfExp : after (exec (.gfExp 8) State.reset) (fun t => t.res == 0x1D) = true := by decide +kernel
theorem test_gfLog : after (exec (.gfLog 0xFF) State.reset) (fun t => t.res == 0xAF) = true := by decide +kernel
theorem test_gfLog_zero : after (exec (.gfLog 0) { State.reset with res := 9 }) (fun t => t.res == 0x00) = true := by
  decide +kernel
theorem test_rsEnc_of_12_34_56 :
    after (exec (.rsEnc 3 7) (codewords [0x12, 0x34, 0x56]))
      (fun t => cwPrefix t.cw 11 == [0x12, 0x34, 0x56, 0x7C, 0xEB, 0xA3, 0x19, 0xCB, 0xD3, 0x45, 0x00]) = true := by
  decide +kernel
theorem test_rsEnc_checks_E_before_range :
    after (exec (.rsEnc 20 5) State.reset) (fun t => t.fault == 5 && t.fcmd == 0x20001405) = true := by
  decide +kernel
theorem test_bsPack_16_bytes :
    after (exec .bsPack (input [0x30, 0x31, 0x32, 0x33, 0x34, 0x35, 0x36, 0x37, 0x38, 0x39, 0x41, 0x42, 0x43, 0x44, 0x45, 0x46]))
      (fun t => cwPrefix t.cw 20 == [0x41, 0x03, 0x03, 0x13, 0x23, 0x33, 0x43, 0x53, 0x63, 0x73, 0x83, 0x94, 0x14, 0x24,
        0x34, 0x44, 0x54, 0x60, 0xEC, 0x00]) = true := by
  decide +kernel
theorem test_bsPack_of_A :
    after (exec .bsPack (input [0x41])) (fun t => cwPrefix t.cw 5 == [0x40, 0x14, 0x10, 0xEC, 0x11]) = true := by
  decide +kernel
theorem test_mxSeed_rows :
    after (exec .mxSeed State.reset) (fun t => (t.grid.toList.take 9) ==
      [0x1FC07F, 0x104041, 0x17405D, 0x17405D, 0x17405D, 0x104041, 0x1FD57F, 0x000000, 0x004000]) = true := by
  decide +kernel
theorem test_mxPlace_first_bit_only :
    after (exec .mxPlace (codewords [0x80])) (fun t => t.grid == gridPut blankGrid 20 20 1) = true := by decide +kernel
theorem test_mxPlace_last_bit_only :
    after (exec .mxPlace { State.reset with cw := bufPut State.reset.cw 25 0x01 })
      (fun t => t.grid == gridPut blankGrid 12 0 1) = true := by decide +kernel
theorem test_mkMask0_rows :
    after (exec .mkMask0 State.reset) (fun t => gridGet t.grid 20 20 == 1 && gridGet t.grid 20 19 == 0 &&
      gridGet t.grid 0 0 == 0 && gridGet t.grid 10 6 == 0 && gridGet t.grid 8 8 == 0) = true := by decide +kernel
theorem test_fwWrite_rows :
    after (exec .fwWrite State.reset) (fun t => t.grid.toList ==
      [0x000000, 0x000000, 0x001000, 0x000000, 0x000000, 0x000000, 0x000000, 0x001000, 0x1DB0C4, 0x000000, 0x000000,
       0x000000, 0x000000, 0x001000, 0x001000, 0x001000, 0x001000, 0x000000, 0x001000, 0x001000, 0x001000]) = true := by
  decide +kernel
theorem test_run_HELLO :
    after (exec .run (input [0x48, 0x45, 0x4C, 0x4C, 0x4F])) (fun t => bufGet t.cw 25 == 0x84 && t.grid.toList ==
      [0x1FCB7F, 0x104E41, 0x175B5D, 0x174A5D, 0x17455D, 0x104141, 0x1FD57F, 0x001B00, 0x1DFEC4, 0x021042, 0x14451F,
       0x191442, 0x14CD54, 0x001AA6, 0x1FD2E7, 0x105FB0, 0x1752E7, 0x174466, 0x175D15, 0x105852, 0x1FD967]) = true := by
  decide +kernel
theorem test_run_too_long :
    after (exec .run { State.reset with len := 18 })
      (fun t => t.fault == 7 && t.fcmd == 0x60000000 && t.grid == blankGrid) = true := by decide +kernel

/-! ## The host port and the step -/

theorem test_step_runs_the_command :
    after (step (State.reset.withFetchWord 32 0x120053CA)) (fun t => t.res == 0x8F && t.inputs == []) = true := by
  decide +kernel
theorem test_step_illegal_word :
    after (step (pending (.write 0 4 0x12010000))) (fun t => t.fault == 1 && t.fcmd == 0x12010000) = true := by
  decide +kernel
theorem test_step_refused_while_faulted :
    after (step { faultedState with inputs := [.write 0 4 0x10000101] }) (fun t => t.res == 9 && t.fault == 2) = true := by
  decide +kernel
theorem test_write_len_keeps_low_byte :
    after (step (pending (.write 0x0010 4 0x1234))) (fun t => t.len == 0x34) = true := by decide +kernel
theorem test_write_module_keeps_bit_0 :
    after (step (pending (.write 0x1000 4 2))) (fun t => gridGet t.grid 0 0 == 0) = true := by decide +kernel
theorem test_read_fmtw : after (step (pending (.read 0x0014 4))) (fun t => t.rdata == some 0x000077C4) = true := by
  decide +kernel
theorem test_read_smask_dark :
    after (step (pending (.read 0x2464 4))) (fun t => t.rdata == some 1) = true := by decide +kernel
theorem test_read_cmd_is_bus_error : isBusError (step (pending (.read 0x0000 4))) = true := by decide +kernel
theorem test_read_size_2_is_bus_error : isBusError (step (pending (.read 0x0010 2))) = true := by decide +kernel
theorem test_misaligned_is_bus_error : isBusError (step (pending (.read 0x0002 4))) = true := by decide +kernel
theorem test_write_past_ibuf_is_bus_error : isBusError (step (pending (.write 0x0084 4 1))) = true := by
  decide +kernel
theorem test_reset_clears_fault :
    after (step { faultedState with inputs := [.reset] }) (fun t => t.fault == 0 && t.res == 0) = true := by
  decide +kernel
theorem test_loadStr_events :
    (ScriptStatement.loadStr [0x41]).events = some [.write 0x0040 4 0x41, .write 0x0010 4 1] := by decide +kernel
theorem test_listed_log_row : (List.range 4).map (tableGet Rom.fixed.log) = [0x00, 0x00, 0x01, 0x19] := by decide +kernel

/-! ## Witnesses: a state and operands that meet each statement's hypotheses -/

theorem test_hyp_LegalWordIsTheWordOfItsCommand :
    ∃ (w : Word) (i : Instr), decode w = .ok i :=
  ⟨0x20001307, .rsEnc 19 7, rfl⟩

theorem test_hyp_OpcodeTableRowsDecodeDisjointly :
    ∀ row ∈ Ref.opcodeRows, row.code &&& row.mask = row.code :=
  by decide

theorem test_hyp_IllegalWordsRaiseIllegalCommand :
    ∀ w ∈ ([0x00010000, 0x16000000, 0x140000FF, 0x60000001, 0x30000100] : List Word),
      ∃ s rest, Ref.CmdWrite s w rest ∧ s.fault = 0 ∧ (decode w).toOption = none :=
  by
  intro w hw
  refine ⟨pending (.write 0 4 w), [], rfl, rfl, ?_⟩
  simp only [List.mem_cons, List.not_mem_nil, or_false] at hw
  rcases hw with rfl | rfl | rfl | rfl | rfl <;> rfl

theorem test_hyp_AssemblerAcceptsExactlyLegalStatements :
    ∃ c w, CommandStatement.assemble c = some w :=
  ⟨⟨.rsEnc, [19, 7]⟩, 0x20001307, by decide⟩

theorem test_hyp_CommandWriteRunsTheDecodedCommand :
    (∃ s w rest i, Ref.CmdWrite s w rest ∧ decode w = .ok i) ∧
    (∃ s w rest, Ref.CmdWrite s w rest ∧ s.fault ≠ 0) ∧
    (∃ s w rest e, Ref.CmdWrite s w rest ∧ decode w = .error e ∧ s.fault = 0) :=
  ⟨⟨pending (.write 0 4 0x60000000), _, [], .run, rfl, rfl⟩,
   ⟨{ faultedState with inputs := [.write 0 4 0x60000000] }, _, [], rfl, by decide⟩,
   ⟨pending (.write 0 4 0), _, [], .unknownOpcode, rfl, rfl, rfl⟩⟩

theorem test_hyp_IdleStepHoldsTheState :
    ∃ s : State, s.inputs = [] :=
  ⟨State.reset, rfl⟩

theorem test_hyp_CommandsAreRefusedWhileFaulted :
    ∀ e : HostEvent, ∃ s : State, s.fault ≠ 0 ∧ s.inputs = [e] ∧ s.load .fcmd = some 0x13000500 :=
  fun e => ⟨{ faultedState with inputs := [e] }, show (2 : BitVec 4) ≠ 0 by decide, rfl, rfl⟩

theorem test_hyp_HostReadReturnsTheStoredValue :
    ∀ n : Nat, ∃ (s : State) (rest : List HostEvent), s.inputs = .read (BitVec.ofNat 16 n) 4 :: rest :=
  fun n => ⟨pending (.read (BitVec.ofNat 16 n) 4), [], rfl⟩

theorem test_hyp_HostWriteStoresTheLowBitsOnly :
    (∀ (n : Nat) (v : Word), ∃ (s : State) (rest : List HostEvent), s.inputs = .write (BitVec.ofNat 16 n) 4 v :: rest) ∧
    (∃ s v rest i, Ref.CmdWrite s v rest ∧ decode v = .ok i) :=
  ⟨fun n v => ⟨pending (.write (BitVec.ofNat 16 n) 4 v), [], rfl⟩,
   ⟨pending (.write 0 4 0x60000000), _, [], .run, rfl, rfl⟩⟩

theorem test_hyp_BusErrorExactlyOffTheMap :
    (∀ a size, (pending (.read a size)).inputs = .read a size :: []) ∧
    (∀ a size v, (pending (.write a size v)).inputs = .write a size v :: []) ∧
    Ref.readable 0x26E0 ∧ Ref.readable 0x0004 ∧ ¬ Ref.readable 0x26E4 ∧ ¬ Ref.readable 0x0000 ∧
    Ref.writable 0x16E0 ∧ Ref.writable 0x0000 ∧ ¬ Ref.writable 0x16E4 ∧ ¬ Ref.writable 0x0084 :=
  by
  refine ⟨fun _ _ => rfl, fun _ _ _ => rfl, ?_⟩
  unfold Ref.readable Ref.writable
  omega

theorem test_hyp_ReadAfterWriteReturnsTheWrittenValue :
    ∀ l ∈ [Location.len, .ibuf 16, .cw 25, .grid 20 20], ∀ l' ∈ [l, .fmtw], ∃ s : State,
      s.inputs = [.write l.addr 4 0x1FF, .read l'.addr 4] ∧ after (step s) (fun _ => true) = true ∧
        (s.load .fmtw).isSome = true :=
  by
  intro l hl l' _
  refine ⟨{ State.reset with inputs := [.write l.addr 4 0x1FF, .read l'.addr 4] }, rfl, ?_, rfl⟩
  simp only [List.mem_cons, List.not_mem_nil, or_false] at hl
  rcases hl with rfl | rfl | rfl | rfl <;> rfl

theorem test_hyp_ResetZeroesAllButTheRoms :
    ∃ (s : State) (rest : List HostEvent), s.fault ≠ 0 ∧ s.inputs = .reset :: rest :=
  ⟨{ faultedState with inputs := [.reset] }, [], by decide, rfl⟩

theorem test_hyp_GfAddAndSubAreExclusiveOr :
    ∃ s : State, s.fault = 0 :=
  ⟨State.reset, rfl⟩

theorem test_hyp_GfMulIsTheProductModuloThePolynomial :
    ∃ s : State, s.fault = 0 ∧ RomFixed s :=
  ⟨State.reset, rfl, rfl⟩

theorem test_hyp_GfExpIsThePowerOfAlpha :
    ∃ s : State, s.fault = 0 ∧ RomFixed s :=
  ⟨State.reset, rfl, rfl⟩

theorem test_hyp_GfDivFaultsOnZeroAndElseInvertsTheProduct :
    ∃ (s : State) (b : Byte), s.fault = 0 ∧ RomFixed s ∧ b ≠ 0 :=
  ⟨State.reset, 0xFF, rfl, rfl, by decide⟩

theorem test_hyp_GfLogIsTheExponent :
    ∃ (s : State) (a : Byte), s.fault = 0 ∧ RomFixed s ∧ a ≠ 0 :=
  ⟨State.reset, 0xFF, rfl, rfl, by decide⟩

theorem test_hyp_GfFunctionsFormAField :
    ∃ a b : Byte, a ≠ 0 ∧ b ≠ 0 :=
  ⟨1, 0xFF, by decide, by decide⟩

theorem test_hyp_RsEncChecksThenWritesTheRemainder :
    (∃ n e : Byte, n ≠ 0 ∧ e = 0) ∧ (∃ n e : Byte, n ≠ 0 ∧ e ≠ 0 ∧ e ≠ 7) ∧
    (∃ n e : Byte, n.toNat > 19 ∧ e = 7) ∧
    (∀ n ∈ ([1, 19] : List Byte), ∃ s : State, s.fault = 0 ∧ RomFixed s ∧ 1 ≤ n.toNat ∧ n.toNat ≤ 19) :=
  by
  refine ⟨⟨1, 0, by decide⟩, ⟨255, 8, by decide⟩, ⟨20, 7, by decide⟩, ?_⟩
  intro n hn
  refine ⟨State.reset, rfl, rfl, ?_⟩
  revert n
  decide

theorem test_hyp_EncodedCodewordsVanishAtTheRoots :
    ∃ (s : State) (n : Byte), s.fault = 0 ∧ RomFixed s ∧ 1 ≤ n.toNat ∧ n.toNat ≤ 19 :=
  ⟨State.reset, 19, rfl, rfl, by decide, by decide⟩

theorem test_hyp_RemainderOfDataWithItsRemainderIsZero :
    ∃ d : List Byte, 1 ≤ d.length ∧ d.length ≤ 19 :=
  ⟨[0x12, 0x34, 0x56], by decide, by decide⟩

theorem test_hyp_BsPackChecksLengthThenPacksTheInput :
    (∃ s : State, s.fault = 0 ∧ s.len.toNat > 17) ∧ (∃ s : State, s.fault = 0 ∧ s.len.toNat ≤ 17) :=
  ⟨⟨{ State.reset with len := 18 }, rfl, by decide⟩, ⟨{ State.reset with len := 17 }, rfl, by decide⟩⟩

theorem test_hyp_InputLengthLimitIsSeventeen :
    ∃ s : State, s.fault = 0 ∧ 18 ≤ s.len.toNat :=
  ⟨{ State.reset with len := 18 }, rfl, by decide⟩

theorem test_hyp_PackedBitsAreTheStream :
    ∃ s : State, s.fault = 0 ∧ s.len.toNat ≤ 17 :=
  ⟨{ State.reset with len := 17 }, rfl, by decide⟩

theorem test_hyp_MxSeedDrawsFindersAndTimingOnly :
    ∃ s : State, s.fault = 0 :=
  ⟨State.reset, rfl⟩

theorem test_hyp_MxPlacePutsEachCodewordBitAtItsModule :
    ∃ s : State, s.fault = 0 ∧ RomFixed s :=
  ⟨State.reset, rfl, rfl⟩

theorem test_hyp_MkMask0InvertsEvenRegionModules :
    ∃ s : State, s.fault = 0 ∧ RomFixed s :=
  ⟨State.reset, rfl, rfl⟩

theorem test_hyp_FwWriteWritesBothPathsAndTheDarkModule :
    ∃ s : State, s.fault = 0 ∧ RomFixed s :=
  ⟨State.reset, rfl, rfl⟩

theorem test_hyp_PlacementOverwritesEarlierRegionWork :
    ∃ s : State, s.fault = 0 ∧ RomFixed s :=
  ⟨State.reset, rfl, rfl⟩

theorem test_hyp_RunProducesTheSymbolOfTheInput :
    (∃ s : State, s.fault = 0 ∧ s.len.toNat > 17) ∧ (∃ s : State, s.fault = 0 ∧ RomFixed s ∧ s.len.toNat ≤ 17) :=
  ⟨⟨{ State.reset with len := 255 }, rfl, by decide⟩, ⟨{ State.reset with len := 17 }, rfl, rfl, by decide⟩⟩

theorem test_hyp_RunEqualsTheSixCommands :
    (∃ s : State, s.fault = 0 ∧ s.len.toNat ≤ 17) ∧ (∃ s : State, s.fault = 0 ∧ s.len.toNat > 17) :=
  ⟨⟨{ State.reset with len := 17 }, rfl, by decide⟩, ⟨{ State.reset with len := 18 }, rfl, by decide⟩⟩

theorem test_hyp_RunDependsOnlyOnTheInput :
    ∃ s₁ s₂ : State, s₁ ≠ s₂ ∧ s₁.fault = 0 ∧ s₂.fault = 0 ∧ RomFixed s₁ ∧ RomFixed s₂ ∧ s₁.len = s₂.len ∧
      s₁.len.toNat ≤ 17 ∧ ∀ i < s₁.len.toNat, bufGet s₁.ibuf i = bufGet s₂.ibuf i :=
  by
  refine ⟨input [0x41], { input [0x41] with res := 9 }, ?_, rfl, rfl, rfl, rfl, rfl, by decide, fun _ _ => rfl⟩
  intro h
  have := congrArg State.res h
  revert this
  decide

theorem test_hyp_RunTwiceIsRunOnce :
    ∃ s t : State, RomFixed s ∧ exec .run s = .next t :=
  ⟨faultedState, faultedState, rfl, rfl⟩

theorem test_hyp_CommandsWriteOnlyTheLocationsOfTheirRules :
    ∃ (i : Instr) (s t : State), RomFixed s ∧ exec i s = .next t ∧ t.fault ≠ s.fault :=
  ⟨.gfDiv 5 0, State.reset, State.reset.raise .divisionByZero 0x13000500, rfl, rfl, by decide⟩

theorem test_hyp_CmdWriteRaisesExactlyTheTableFaults :
    ∃ s w rest, Ref.CmdWrite s w rest ∧ s.fault = 0 :=
  ⟨pending (.write 0 4 0x13000500), _, [], rfl, rfl⟩

theorem test_hyp_OnlyResetLeavesTheFaultedState :
    (∃ s t : State, s.fault ≠ 0 ∧ step s = .next t ∧ s.inputs.head? ≠ some .reset) ∧
    (∃ s t : State, s.fault ≠ 0 ∧ step s = .next t ∧ s.inputs.head? = some .reset) :=
  ⟨⟨faultedState, faultedState, by decide, rfl, by decide⟩,
   ⟨{ faultedState with inputs := [.reset] }, State.reset, by decide, rfl, rfl⟩⟩

theorem test_hyp_OnlySeedFormatAndRunWriteStructuralModules :
    ∃ (i : Instr) (s t : State), i ≠ .mxSeed ∧ i ≠ .fwWrite ∧ i ≠ .run ∧ RomFixed s ∧ exec i s = .next t ∧
      t.grid = place s.smask s.cw s.grid ∧ Ref.inRegion 13 8 = false :=
  by
  refine ⟨.mxPlace, State.reset, placeBody State.reset, by decide, by decide, by decide, rfl, ?_, State.setGrid_grid _ _, by decide⟩
  rw [exec_mxPlace]
  exact command_live rfl _

theorem test_hyp_FormatWordSurvivesEveryCommandButSeed :
    ∃ (i : Instr) (s t : State), i ≠ .mxSeed ∧ RomFixed s ∧ Ref.readBack s.grid Ref.path1 = 0x77C4 ∧
      Ref.readBack s.grid Ref.path2 = 0x77C4 ∧ gridGet s.grid 13 8 = 1 ∧ exec i s = .next t :=
  ⟨.mkMask0, formatBody State.reset, maskBody (formatBody State.reset), by decide, rfl, by decide +kernel,
    by decide +kernel, by decide +kernel, rfl⟩

theorem test_hyp_IndependentCommandsCommute :
    ∀ p ∈ [(Instr.bsPack, Instr.mxSeed), (.rsEnc 19 7, .fwWrite), (.fwWrite, .mkMask0), (.gfDiv 1 2, .run)], ∃ s : State,
      Ref.commuting p.1 p.2 = true ∧ s.fault = 0 ∧ RomFixed s ∧ Ref.raises p.1 s = 0 ∧ Ref.raises p.2 s = 0 :=
  by
  intro p hp
  simp only [List.mem_cons, List.not_mem_nil, or_false] at hp
  rcases hp with rfl | rfl | rfl | rfl <;> exact ⟨State.reset, rfl, rfl, rfl, rfl, rfl⟩

theorem test_hyp_LoadStringFillsTheInputBuffer :
    ∃ (s : State) (str : List Byte) (es rest : List HostEvent), (ScriptStatement.loadStr str).events = some es ∧
      s.inputs = es ++ rest :=
  ⟨{ State.reset with inputs := loadStrEvents [0x41] }, [0x41], loadStrEvents [0x41], [], rfl, (List.append_nil _).symm⟩

theorem test_hyp_EveryStepKeepsSoundness :
    ∃ s t : State, Sound s ∧ s.fault ≠ 0 ∧ step s = .next t :=
  ⟨faultedState, faultedState, ⟨rfl, by decide⟩, by decide, rfl⟩

end Sys2Proof.Tests
end

section
/-! SUPPORT. The host port access by access (20_memory.md R50 to R56): what each location's address, load and store
are, and when a served access completes. -/

namespace Sys2Proof.Machine

/-! ## Entries of the buffers, tables and matrices at an index in range -/

@[simp] theorem bufGet_fin {n : Nat} (v : Vector Byte n) (i : Fin n) : bufGet v i.val = v[i] := by
  simp [bufGet]

/-- The 16 × 16 layout of R102 and R103: entry 16 × row + column. -/
theorem tableGet_row_col (t : Table) (hi lo : Fin 16) : tableGet t (16 * hi.val + lo.val) = t[hi][lo] := by
  have hlt : 16 * hi.val + lo.val < 256 := by omega
  have hdiv : (16 * hi.val + lo.val) / 16 = hi.val := by omega
  have hmod : (16 * hi.val + lo.val) % 16 = lo.val := by omega
  simp [tableGet, hlt, hdiv, hmod]

/-- Column `c` of a row is bit `20 - c` (R11). -/
theorem rowGet_eq_ofBool (row : Row) (c : Nat) : rowGet row c = BitVec.ofBool (row.getLsbD (20 - c)) := by
  apply BitVec.eq_of_getLsbD_eq
  intro i hi
  obtain rfl : i = 0 := by omega
  simp [rowGet]

theorem gridGet_fin (g : Grid) (r c : Fin 21) :
    gridGet g r.val c.val = BitVec.ofBool (g[r].getLsbD (20 - c.val)) := by
  simp [gridGet, rowGet_eq_ofBool]

/-- Reading another module than the one written. -/
theorem gridGet_gridPut_ne (g : Grid) (v : Module) {r c r' c' : Nat} (h : (r', c') ≠ (r, c)) :
    gridGet (gridPut g r c v) r' c' = gridGet g r' c' := by
  rw [gridGet_gridPut, if_neg]
  rintro ⟨rfl, rfl, -⟩
  exact h rfl

/-! ## The address map, from numbers -/

/-- An access of 4 bytes names a location exactly at the location's byte address. -/
theorem locate_iff_offset {a : Addr} {l : Location} : locate a 4 = some l ↔ a.toNat = l.offset := by
  rw [locate_eq_some, ← BitVec.toNat_inj, Location.addr_toNat]
  simp

theorem Location.addr_of_offset {l : Location} {a : Addr} (h : l.offset = a.toNat) : a = l.addr := by
  rw [← BitVec.toNat_inj, Location.addr_toNat, h]

/-- Every index below 441 is the linear index of a module (R53). -/
theorem exists_linearIndex {n : Nat} (h : n < 441) : ∃ r c : Fin 21, linearIndex r c = n :=
  ⟨⟨n / 21, by omega⟩, ⟨n % 21, by omega⟩, by simp only [linearIndex]; omega⟩

/-- The locations a host write stores to or acts on: the rows of R52 with access W. -/
def Location.acceptsWrite : Location → Bool
  | .cmd | .len | .ibuf _ | .cw _ | .grid _ _ => true
  | .fault | .fcmd | .res | .fmtw | .gen _ | .exp _ | .log _ | .smask _ _ => false

/-- The readable ranges of R52 are the addresses of every location but `CMD`. -/
theorem readable_iff {n : Nat} : Ref.readable n ↔ ∃ l : Location, l ≠ .cmd ∧ l.offset = n := by
  constructor
  · rintro ⟨h4, h | h | h | h | h | h | h | h | h | h | h | h⟩
    · exact ⟨.fault, nofun, h.symm⟩
    · exact ⟨.fcmd, nofun, h.symm⟩
    · exact ⟨.res, nofun, h.symm⟩
    · exact ⟨.len, nofun, h.symm⟩
    · exact ⟨.fmtw, nofun, h.symm⟩
    · exact ⟨.gen ⟨(n - 0x20) / 4, by omega⟩, nofun, by simp only [Location.offset]; omega⟩
    · exact ⟨.ibuf ⟨(n - 0x40) / 4, by omega⟩, nofun, by simp only [Location.offset]; omega⟩
    · exact ⟨.cw ⟨(n - 0x100) / 4, by omega⟩, nofun, by simp only [Location.offset]; omega⟩
    · exact ⟨.exp ⟨(n - 0x400) / 4, by omega⟩, nofun, by simp only [Location.offset]; omega⟩
    · exact ⟨.log ⟨(n - 0x800) / 4, by omega⟩, nofun, by simp only [Location.offset]; omega⟩
    · obtain ⟨r, c, hrc⟩ := exists_linearIndex (n := (n - 0x1000) / 4) (by omega)
      exact ⟨.grid r c, nofun, by simp only [Location.offset, hrc]; omega⟩
    · obtain ⟨r, c, hrc⟩ := exists_linearIndex (n := (n - 0x2000) / 4) (by omega)
      exact ⟨.smask r c, nofun, by simp only [Location.offset, hrc]; omega⟩
  · rintro ⟨l, hl, rfl⟩
    cases l with
    | cmd => exact absurd rfl hl
    | grid r c =>
      have := linearIndex_lt r c
      simp only [Ref.readable, Location.offset]
      omega
    | smask r c =>
      have := linearIndex_lt r c
      simp only [Ref.readable, Location.offset]
      omega
    | gen _ | ibuf _ | cw _ | exp _ | log _ =>
      simp only [Ref.readable, Location.offset]
      omega
    | _ => simp [Ref.readable, Location.offset]

/-- The writable ranges of R52 are the addresses of the locations that accept a write. -/
theorem writable_iff {n : Nat} : Ref.writable n ↔ ∃ l : Location, l.acceptsWrite = true ∧ l.offset = n := by
  constructor
  · rintro ⟨h4, h | h | h | h | h⟩
    · exact ⟨.cmd, rfl, h.symm⟩
    · exact ⟨.len, rfl, h.symm⟩
    · exact ⟨.ibuf ⟨(n - 0x40) / 4, by omega⟩, rfl, by simp only [Location.offset]; omega⟩
    · exact ⟨.cw ⟨(n - 0x100) / 4, by omega⟩, rfl, by simp only [Location.offset]; omega⟩
    · obtain ⟨r, c, hrc⟩ := exists_linearIndex (n := (n - 0x1000) / 4) (by omega)
      exact ⟨.grid r c, rfl, by simp only [Location.offset, hrc]; omega⟩
  · rintro ⟨l, hl, rfl⟩
    cases l with
    | grid r c =>
      have := linearIndex_lt r c
      simp only [Ref.writable, Location.offset]
      omega
    | ibuf _ | cw _ =>
      simp only [Ref.writable, Location.offset]
      omega
    | cmd | len => simp [Ref.writable, Location.offset]
    | _ => cases hl

/-! ## Loads and stores -/

/-- Taking an event from the pending inputs changes nothing the host can read. -/
@[simp] theorem State.load_take (s : State) (rest : List HostEvent) (l : Location) :
    (s.take rest).load l = s.load l := by
  cases l <;> rfl

/-- `CMD` is the one location without a value to read (R25). -/
theorem State.load_eq_none_iff {s : State} {l : Location} : s.load l = none ↔ l = .cmd := by
  cases l <;> simp [State.load]

/-- Of the locations that accept a write, all but `CMD` store it. -/
theorem State.store_isSome {s : State} {v : Word} {l : Location} :
    (s.store v l).isSome = true ↔ l.acceptsWrite = true ∧ l ≠ .cmd := by
  cases l <;> simp [State.store, Location.acceptsWrite]

/-! ## Commands complete -/

/-- Every command is the guarded effect of its rule. -/
theorem exec_eq_command (i : Instr) (s : State) : ∃ effect, exec i s = command s effect := by
  cases i <;> exact ⟨_, rfl⟩

/-- While `FAULT` is not 0 every command is refused without effect (R233). -/
theorem exec_refused {s : State} (h : s.fault ≠ 0) (i : Instr) : exec i s = .next s := by
  obtain ⟨effect, he⟩ := exec_eq_command i s
  rw [he, command_refused h]

/-- Every command completes, its faults included (R232). -/
theorem exec_completes (i : Instr) (s : State) : ∃ t, exec i s = .next t := by
  obtain ⟨effect, he⟩ := exec_eq_command i s
  by_cases hf : s.fault = 0
  · exact ⟨effect, by rw [he, command_live hf]⟩
  · exact ⟨s, exec_refused hf i⟩

theorem execWord_refused {s : State} (h : s.fault ≠ 0) (w : Word) : execWord w s = .next s := by
  have h' : ¬ s.fault = 0#4 := h
  simp [execWord, h']

/-- A legal word does what its command does, refusal while faulted included. -/
theorem execWord_of_decode {w : Word} {i : Instr} (h : decode w = .ok i) (s : State) :
    execWord w s = exec i s := by
  by_cases hf : s.fault = 0
  · simp [execWord, hf, h]
  · rw [execWord_refused hf, exec_refused hf]

theorem execWord_of_illegal {w : Word} {e : Illegal} {s : State} (hf : s.fault = 0) (h : decode w = .error e) :
    execWord w s = .next (s.raise .illegalCommand w) := by
  simp [execWord, hf, h]

/-- A `CMD` write completes whatever its word (R232, R233). -/
theorem execWord_completes (w : Word) (s : State) : ∃ t, execWord w s = .next t := by
  by_cases hf : s.fault = 0
  · cases hd : decode w with
    | error e => exact ⟨_, execWord_of_illegal hf hd⟩
    | ok i => rw [execWord_of_decode hd]; exact exec_completes i s
  · exact ⟨s, execWord_refused hf w⟩

/-! ## Served accesses -/

theorem serve_read_of_load {s : State} {l : Location} {v : Word} (h : s.load l = some v) :
    serve (.read l.addr 4) s = .next (s.returns v) := by
  simp [serve, serveRead, memRead_addr, h]

theorem serve_write_cmd (s : State) (v : Word) : serve (.write Location.cmd.addr 4 v) s = execWord v s := by
  simp [serve, serveWrite]

/-- A write to a location that stores for the host (R55). -/
theorem serve_write_of_store {s t : State} {l : Location} {v : Word} (h : s.store v l = some t) :
    serve (.write l.addr 4 v) s = .next t := by
  cases l with
  | cmd => cases h
  | _ => simp [serve, serveWrite, h]

/-- A write to a location that neither stores nor executes (R56). -/
theorem serve_write_of_no_store {s : State} {l : Location} {v : Word} (hcmd : l ≠ .cmd)
    (h : s.store v l = none) : serve (.write l.addr 4 v) s = .fault .busError := by
  cases l with
  | cmd => exact absurd rfl hcmd
  | _ => simp [serve, serveWrite, h]

/-- A read of 4 bytes at a readable address completes (R54). -/
theorem serve_read_completes {a : Addr} {size : Nat} (s : State) (h : size = 4 ∧ Ref.readable a.toNat) :
    ∃ t, serve (.read a size) s = .next t := by
  obtain ⟨rfl, hr⟩ := h
  obtain ⟨l, hl, ho⟩ := readable_iff.mp hr
  obtain ⟨v, hv⟩ := Option.ne_none_iff_exists'.mp (mt State.load_eq_none_iff.mp hl)
  rw [Location.addr_of_offset ho]
  exact ⟨_, serve_read_of_load hv⟩

/-- Any other read is a bus error (R56). -/
theorem serve_read_busError {a : Addr} {size : Nat} (s : State) (h : ¬ (size = 4 ∧ Ref.readable a.toNat)) :
    serve (.read a size) s = .fault .busError := by
  have hnone : memRead s a size = none := by
    rw [memRead, Option.bind_eq_none_iff]
    intro l hl
    obtain ⟨rfl, rfl⟩ := locate_eq_some.mp hl
    rw [State.load_eq_none_iff]
    by_contra hc
    exact h ⟨rfl, readable_iff.mpr ⟨l, hc, l.addr_toNat.symm⟩⟩
  simp only [serve, serveRead, hnone]

/-- A write of 4 bytes at a writable address completes, a faulting or refused command included (R55, R232). -/
theorem serve_write_completes {a : Addr} {size : Nat} (v : Word) (s : State)
    (h : size = 4 ∧ Ref.writable a.toNat) : ∃ t, serve (.write a size v) s = .next t := by
  obtain ⟨rfl, hw⟩ := h
  obtain ⟨l, hl, ho⟩ := writable_iff.mp hw
  rw [Location.addr_of_offset ho]
  by_cases hc : l = .cmd
  · rw [hc, serve_write_cmd]
    exact execWord_completes v s
  · obtain ⟨t, ht⟩ := Option.isSome_iff_exists.mp (State.store_isSome.mpr ⟨hl, hc⟩)
    exact ⟨t, serve_write_of_store ht⟩

/-- Any other write is a bus error (R56). -/
theorem serve_write_busError {a : Addr} {size : Nat} (v : Word) (s : State)
    (h : ¬ (size = 4 ∧ Ref.writable a.toNat)) : serve (.write a size v) s = .fault .busError := by
  cases hl : locate a size with
  | none => simp only [serve, serveWrite, hl]
  | some l =>
    obtain ⟨rfl, rfl⟩ := locate_eq_some.mp hl
    have hacc : ¬ l.acceptsWrite = true := fun hc =>
      h ⟨rfl, writable_iff.mpr ⟨l, hc, l.addr_toNat.symm⟩⟩
    have hcmd : l ≠ .cmd := by
      rintro rfl
      exact hacc rfl
    have hstore : s.store v l = none :=
      Option.not_isSome_iff_eq_none.mp fun hs => hacc (State.store_isSome.mp hs).1
    exact serve_write_of_no_store hcmd hstore

/-- An answer that completes under a condition and is a bus error without it is a bus error exactly without it. -/
theorem busError_iff_not {o : Answer} {mapped : Prop} (completes : mapped → ∃ t, o = .next t)
    (faults : ¬ mapped → o = .fault .busError) :
    (o = .fault .busError ↔ ¬ mapped) ∧ (mapped → ∃ t, o = .next t) := by
  refine ⟨⟨fun h hm => ?_, faults⟩, completes⟩
  obtain ⟨t, ht⟩ := completes hm
  rw [ht] at h
  cases h

/-! ## Steps that serve an access at a numeric address -/

/-- A read at a location's byte address returns its stored value and has no side effect (R54). -/
theorem readsAs_of_load {s : State} {n : Nat} {v : Word} (l : Location) (hn : l.offset = n)
    (hv : s.load l = some v) : Ref.ReadsAs s n v := by
  subst hn
  intro rest h
  rw [step_of_inputs h]
  exact serve_read_of_load (by rw [State.load_take, hv])

/-- A write at a location's byte address that stores something completes with that store (R55). -/
theorem step_write_of_store {s t : State} {n : Nat} {v : Word} {rest : List HostEvent} (l : Location)
    (hn : l.offset = n) (h : s.inputs = .write (BitVec.ofNat 16 n) 4 v :: rest)
    (ht : (s.take rest).store v l = some t) : step s = .next t := by
  subst hn
  rw [step_of_inputs h]
  exact serve_write_of_store ht

/-- A write to `CMD` executes the written word (R25, R55). -/
theorem step_of_cmdWrite {s : State} {w : Word} {rest : List HostEvent} (h : Ref.CmdWrite s w rest) :
    step s = execWord w (Ref.served s rest) := by
  rw [step_of_inputs h]
  exact serve_write_cmd _ _

end Sys2Proof.Machine
end

section
/-! PROOFS. The statements of 20_memory.md. -/

namespace Sys2Proof.Machine

/-- Settles O10: each clause is the load of one location of R52, at that location's address. -/
theorem hostReadReturnsTheStoredValue : Obligations.HostReadReturnsTheStoredValue := by
  unfold Obligations.HostReadReturnsTheStoredValue
  intro s
  refine ⟨readsAs_of_load .fault rfl rfl, readsAs_of_load .fcmd rfl rfl, readsAs_of_load .res rfl rfl,
    readsAs_of_load .len rfl rfl, readsAs_of_load .fmtw rfl rfl,
    fun j => readsAs_of_load (.gen j) rfl ?_, fun i => readsAs_of_load (.ibuf i) rfl ?_,
    fun k => readsAs_of_load (.cw k) rfl ?_,
    fun hi lo => readsAs_of_load (.exp ⟨16 * hi.val + lo.val, by omega⟩) rfl ?_,
    fun hi lo => readsAs_of_load (.log ⟨16 * hi.val + lo.val, by omega⟩) rfl ?_,
    fun r c => readsAs_of_load (.grid r c) rfl ?_, fun r c => readsAs_of_load (.smask r c) rfl ?_⟩
  · rw [State.load, bufGet_fin]
  · rw [State.load, bufGet_fin]
  · rw [State.load, bufGet_fin]
  · rw [State.load, tableGet_row_col]
  · rw [State.load, tableGet_row_col]
  · rw [State.load, gridGet_fin]
  · rw [State.load, gridGet_fin]

/-- Settles O11: each storage write is the store at its location, whose frame is read after write on the buffer or the
matrix; a `CMD` write is the execution of its word. -/
theorem hostWriteStoresTheLowBitsOnly : Obligations.HostWriteStoresTheLowBitsOnly := by
  unfold Obligations.HostWriteStoresTheLowBitsOnly
  intro s rest v
  refine ⟨fun h => step_write_of_store .len rfl h rfl, ?_, ?_, ?_, ?_⟩
  · intro i hi h
    exact ⟨_, step_write_of_store (.ibuf ⟨i, hi⟩) rfl h rfl, rfl, bufGet_bufPut_same _ _ hi,
      fun j hj => bufGet_bufPut_ne _ _ hj.symm⟩
  · intro k hk h
    exact ⟨_, step_write_of_store (.cw ⟨k, hk⟩) rfl h rfl, rfl, bufGet_bufPut_same _ _ hk,
      fun j hj => bufGet_bufPut_ne _ _ hj.symm⟩
  · intro r hr c hc h
    exact ⟨_, step_write_of_store (.grid ⟨r, hr⟩ ⟨c, hc⟩) rfl h rfl, rfl, gridGet_gridPut_same _ _ hr hc,
      fun r' c' hne => gridGet_gridPut_ne _ _ hne⟩
  · intro i h hd
    rw [step_of_cmdWrite h, execWord_of_decode hd]

/-- Settles O12: on the map an access completes, off the map it is a bus error, for reads and for writes. -/
theorem busErrorExactlyOffTheMap : Obligations.BusErrorExactlyOffTheMap := by
  unfold Obligations.BusErrorExactlyOffTheMap
  constructor
  · intro s rest a size h
    rw [step_of_inputs h]
    exact busError_iff_not (serve_read_completes _) (serve_read_busError _)
  · intro s rest a size v h
    rw [step_of_inputs h]
    exact busError_iff_not (serve_write_completes v _) (serve_write_busError v _)

/-- Settles O13: the map is one to one between locations and their addresses. -/
theorem moduleAddressesAreRowMajor : Obligations.ModuleAddressesAreRowMajor := by
  unfold Obligations.ModuleAddressesAreRowMajor
  exact ⟨fun _ _ _ => locate_iff_offset, fun _ _ _ => locate_iff_offset, locate_iff_offset.mpr rfl⟩

end Sys2Proof.Machine
end

section
/-! SUPPORT. The command encoding mnemonic by mnemonic (30_encoding.md R82 to R85): the rows of R83 as a function of the
mnemonic, which words a row selects in terms of the four fields, and what the decoder answers on them. -/

namespace Sys2Proof

/-! ## The rows of R83 -/

/-- The thirteen mnemonics, in the order of R82. -/
def Mnemonic.all : List Mnemonic :=
  [.gfAdd, .gfSub, .gfMul, .gfDiv, .gfExp, .gfLog, .rsEnc, .bsPack, .mxSeed, .mxPlace, .mkMask0, .fwWrite, .run]

theorem Mnemonic.mem_all (m : Mnemonic) : m ∈ Mnemonic.all := by
  cases m <;> decide

/-- The command of a mnemonic; a field the command does not use is dropped (R82). -/
def Mnemonic.command : Mnemonic → Byte → Byte → Instr
  | .gfAdd => .gfAdd
  | .gfSub => .gfSub
  | .gfMul => .gfMul
  | .gfDiv => .gfDiv
  | .gfExp => fun a _ => .gfExp a
  | .gfLog => fun a _ => .gfLog a
  | .rsEnc => .rsEnc
  | .bsPack => fun _ _ => .bsPack
  | .mxSeed => fun _ _ => .mxSeed
  | .mxPlace => fun _ _ => .mxPlace
  | .mkMask0 => fun _ _ => .mkMask0
  | .fwWrite => fun _ _ => .fwWrite
  | .run => fun _ _ => .run

@[simp] theorem Mnemonic.mnemonic_command (m : Mnemonic) (a b : Byte) : (m.command a b).mnemonic = m := by
  cases m <;> rfl

/-- The mask of R83: `OP` and `RSV` are fixed, and each operand field the command does not use. -/
def Mnemonic.mask (m : Mnemonic) : Word :=
  0xFFFF0000 ||| (if m.arity < 1 then 0x0000FF00 else 0) ||| (if m.arity < 2 then 0x000000FF else 0)

/-- The row of R83 of a mnemonic. -/
def Mnemonic.row (m : Mnemonic) : Ref.OpcodeRow :=
  { mnemonic := m, code := commandWord m.opcode 0 0, mask := m.mask, build := m.command }

/-- The table of R83 holds the row of each mnemonic. -/
theorem opcodeRows_eq_map : Ref.opcodeRows = Mnemonic.all.map Mnemonic.row := rfl

theorem forall_mem_opcodeRows {p : Ref.OpcodeRow → Prop} :
    (∀ row ∈ Ref.opcodeRows, p row) ↔ ∀ m : Mnemonic, p m.row := by
  simp [opcodeRows_eq_map, Mnemonic.mem_all]

/-! ## Selection by a row, field by field -/

theorem word_ext_fields {v w : Word} (hop : fieldOp v = fieldOp w) (hrsv : fieldRsv v = fieldRsv w)
    (ha : fieldA v = fieldA w) (hb : fieldB v = fieldB w) : v = w := by
  rw [← BitVec.toNat_inj] at hop hrsv ha hb ⊢
  simp only [fieldOp_toNat, fieldRsv_toNat, fieldA_toNat, fieldB_toNat] at hop hrsv ha hb
  omega

/-- A mask selects by each field separately. -/
theorem and_eq_iff_fields (w mask code : Word) :
    w &&& mask = code ↔
      fieldOp w &&& fieldOp mask = fieldOp code ∧ fieldRsv w &&& fieldRsv mask = fieldRsv code ∧
      fieldA w &&& fieldA mask = fieldA code ∧ fieldB w &&& fieldB mask = fieldB code := by
  simp only [fieldOp, fieldRsv, fieldA, fieldB, ← BitVec.extractLsb'_and]
  constructor
  · rintro rfl
    exact ⟨rfl, rfl, rfl, rfl⟩
  · rintro ⟨hop, hrsv, ha, hb⟩
    exact word_ext_fields hop hrsv ha hb

@[simp] theorem Mnemonic.fieldOp_mask (m : Mnemonic) : fieldOp m.mask = BitVec.allOnes 8 := by
  cases m <;> rfl

@[simp] theorem Mnemonic.fieldRsv_mask (m : Mnemonic) : fieldRsv m.mask = BitVec.allOnes 8 := by
  cases m <;> rfl

@[simp] theorem Mnemonic.fieldA_mask (m : Mnemonic) :
    fieldA m.mask = if m.arity < 1 then BitVec.allOnes 8 else 0 := by
  cases m <;> rfl

@[simp] theorem Mnemonic.fieldB_mask (m : Mnemonic) :
    fieldB m.mask = if m.arity < 2 then BitVec.allOnes 8 else 0 := by
  cases m <;> rfl

/-- Each operand field the command does not use is 0 (R82, R83). -/
def Mnemonic.UnusedZero (m : Mnemonic) (a b : Byte) : Prop :=
  (m.arity < 1 → a = 0) ∧ (m.arity < 2 → b = 0)

/-- The word is one of the command words of `m` (R83). -/
def Mnemonic.Accepts (m : Mnemonic) (w : Word) : Prop :=
  fieldOp w = m.opcode ∧ fieldRsv w = 0 ∧ m.UnusedZero (fieldA w) (fieldB w)

/-- A masked byte is 0: the byte itself where the mask is all ones, any byte where it is 0. -/
theorem and_ite_allOnes_eq_zero (x : Byte) (p : Prop) [Decidable p] :
    x &&& (if p then BitVec.allOnes 8 else 0) = 0 ↔ (p → x = 0) := by
  by_cases h : p
  · rw [if_pos h, BitVec.and_allOnes, forall_prop_of_true h]
  · simp [h]

theorem Mnemonic.row_selects_iff (m : Mnemonic) (w : Word) :
    w &&& m.row.mask = m.row.code ↔ m.Accepts w := by
  simp only [row, and_eq_iff_fields, fieldOp_mask, fieldRsv_mask, fieldA_mask, fieldB_mask, fieldOp_commandWord,
    fieldRsv_commandWord, fieldA_commandWord, fieldB_commandWord, BitVec.and_allOnes, and_ite_allOnes_eq_zero,
    Accepts, UnusedZero]

/-! ## The decoder on the fields -/

theorem decodeFields_of_unusedZero {m : Mnemonic} {a b : Byte} (h : m.UnusedZero a b) :
    decodeFields m.opcode a b = .ok (m.command a b) := by
  obtain ⟨ha, hb⟩ := h
  cases m with
  | gfExp | gfLog =>
    obtain rfl := hb (by decide)
    rfl
  | bsPack | mxSeed | mxPlace | mkMask0 | fwWrite | run =>
    obtain rfl := ha (by decide)
    obtain rfl := hb (by decide)
    rfl
  | _ => rfl

theorem decodeFields_of_not_unusedZero {m : Mnemonic} {a b : Byte} (h : ¬ m.UnusedZero a b) :
    decodeFields m.opcode a b = .error .unusedOperand := by
  cases m with
  | gfExp | gfLog => exact if_neg fun hb => h ⟨nofun, fun _ => hb⟩
  | bsPack | mxSeed | mxPlace | mkMask0 | fwWrite | run =>
    have hab : ¬ (a = 0 ∧ b = 0) := fun ⟨ha, hb⟩ => h ⟨fun _ => ha, fun _ => hb⟩
    exact if_neg hab
  | _ => exact absurd ⟨nofun, nofun⟩ h

theorem decodeFields_of_unknown {op : Byte} (h : ∀ m : Mnemonic, op ≠ m.opcode) (a b : Byte) :
    decodeFields op a b = .error .unknownOpcode := by
  exact (if_neg (h .gfAdd)).trans <| (if_neg (h .gfSub)).trans <| (if_neg (h .gfMul)).trans <|
    (if_neg (h .gfDiv)).trans <| (if_neg (h .gfExp)).trans <| (if_neg (h .gfLog)).trans <|
    (if_neg (h .rsEnc)).trans <| (if_neg (h .bsPack)).trans <| (if_neg (h .mxSeed)).trans <|
    (if_neg (h .mxPlace)).trans <| (if_neg (h .mkMask0)).trans <| (if_neg (h .fwWrite)).trans <|
    if_neg (h .run)

theorem decode_of_rsv_zero {w : Word} (h : fieldRsv w = 0) :
    decode w = decodeFields (fieldOp w) (fieldA w) (fieldB w) := if_neg (not_not.mpr h)

theorem decode_of_rsv_ne_zero {w : Word} (h : fieldRsv w ≠ 0) : decode w = .error .reservedField := if_pos h

/-- A word of `m` decodes to the command of `m` with the operands of bits 15..8 and 7..0. -/
theorem decode_of_accepts {m : Mnemonic} {w : Word} (h : m.Accepts w) :
    decode w = .ok (m.command (fieldA w) (fieldB w)) := by
  obtain ⟨hop, hrsv, hunused⟩ := h
  rw [decode_of_rsv_zero hrsv, hop, decodeFields_of_unusedZero hunused]

/-- Two mnemonics do not share a word: the decoder gives it one command, which has one mnemonic. -/
theorem Mnemonic.Accepts.unique {m n : Mnemonic} {w : Word} (hm : m.Accepts w) (hn : n.Accepts w) : m = n := by
  have hcmd : m.command (fieldA w) (fieldB w) = n.command (fieldA w) (fieldB w) :=
    Except.ok.inj ((decode_of_accepts hm).symm.trans (decode_of_accepts hn))
  simpa using congrArg Instr.mnemonic hcmd

/-! ## The illegal words of R84 -/

theorem decodeFields_illegal_iff (m : Mnemonic) (a b : Byte) :
    (∃ e, decodeFields m.opcode a b = .error e) ↔ ¬ m.UnusedZero a b := by
  constructor
  · rintro ⟨e, he⟩ h
    rw [decodeFields_of_unusedZero h] at he
    cases he
  · exact fun h => ⟨_, decodeFields_of_not_unusedZero h⟩

/-- A word is illegal exactly when no mnemonic accepts it. -/
theorem decode_illegal_iff (w : Word) : (∃ e, decode w = .error e) ↔ ∀ m : Mnemonic, ¬ m.Accepts w := by
  constructor
  · rintro ⟨e, he⟩ m hm
    rw [decode_of_accepts hm] at he
    cases he
  · intro h
    by_cases hrsv : fieldRsv w = 0
    · rw [decode_of_rsv_zero hrsv]
      by_cases hop : ∃ m : Mnemonic, fieldOp w = m.opcode
      · obtain ⟨m, hm⟩ := hop
        rw [hm, decodeFields_illegal_iff]
        exact fun hunused => h m ⟨hm, hrsv, hunused⟩
      · exact ⟨_, decodeFields_of_unknown (not_exists.mp hop) _ _⟩
    · exact ⟨_, decode_of_rsv_ne_zero hrsv⟩

/-- The opcodes of R82. -/
def knownOpcodes : List Byte := [0x10, 0x11, 0x12, 0x13, 0x14, 0x15, 0x20, 0x30, 0x40, 0x41, 0x50, 0x51, 0x60]

/-- The opcodes of the commands that use only `A` (R82). -/
def oneOperandOpcodes : List Byte := [0x14, 0x15]

/-- The opcodes of the commands without operands (R82). -/
def noOperandOpcodes : List Byte := [0x30, 0x40, 0x41, 0x50, 0x51, 0x60]

theorem knownOpcodes_eq_map : knownOpcodes = Mnemonic.all.map Mnemonic.opcode := rfl

theorem mem_knownOpcodes {op : Byte} : op ∈ knownOpcodes ↔ ∃ m : Mnemonic, op = m.opcode := by
  simp [knownOpcodes_eq_map, Mnemonic.mem_all, eq_comm]

theorem opcode_mem_oneOperandOpcodes (m : Mnemonic) : m.opcode ∈ oneOperandOpcodes ↔ m.arity = 1 := by
  cases m <;> decide

theorem opcode_mem_noOperandOpcodes (m : Mnemonic) : m.opcode ∈ noOperandOpcodes ↔ m.arity = 0 := by
  cases m <;> decide

/-- The last two kinds of R84: an operand field the command does not use is not 0. -/
theorem Mnemonic.not_unusedZero_iff (m : Mnemonic) (a b : Byte) :
    ¬ m.UnusedZero a b ↔
      (m.opcode ∈ oneOperandOpcodes ∧ b ≠ 0) ∨ (m.opcode ∈ noOperandOpcodes ∧ (a ≠ 0 ∨ b ≠ 0)) := by
  rw [opcode_mem_oneOperandOpcodes, opcode_mem_noOperandOpcodes, UnusedZero]
  match m.arity with
  | 0 => simp [imp_iff_not_or]
  | 1 => simp
  | n + 2 => simp

/-- The four kinds of R84. -/
theorem decode_illegal_iff_kind (w : Word) :
    (∃ e, decode w = .error e) ↔
      fieldRsv w ≠ 0 ∨ fieldOp w ∉ knownOpcodes ∨ (fieldOp w ∈ oneOperandOpcodes ∧ fieldB w ≠ 0) ∨
      (fieldOp w ∈ noOperandOpcodes ∧ (fieldA w ≠ 0 ∨ fieldB w ≠ 0)) := by
  by_cases hrsv : fieldRsv w = 0
  · rw [decode_of_rsv_zero hrsv, or_iff_right (not_not.mpr hrsv)]
    by_cases hop : fieldOp w ∈ knownOpcodes
    · rw [or_iff_right (not_not.mpr hop)]
      obtain ⟨m, hm⟩ := mem_knownOpcodes.mp hop
      rw [hm, decodeFields_illegal_iff, m.not_unusedZero_iff]
    · have hunknown := not_exists.mp (mt mem_knownOpcodes.mpr hop)
      exact iff_of_true ⟨_, decodeFields_of_unknown hunknown _ _⟩ (.inl hop)
  · exact iff_of_true ⟨_, decode_of_rsv_ne_zero hrsv⟩ (.inl hrsv)

end Sys2Proof
end

section
/-! PROOFS. The statements of 30_encoding.md R83 and R84. -/

namespace Sys2Proof.Machine

/-- Settles O3: a row selects the words its mnemonic accepts, and those decode to its command; disjointness follows, as
the decoder gives a word one command. -/
theorem opcodeTableRowsDecodeDisjointly : Obligations.OpcodeTableRowsDecodeDisjointly := by
  unfold Obligations.OpcodeTableRowsDecodeDisjointly
  simp only [forall_mem_opcodeRows]
  refine ⟨fun m w hw => decode_of_accepts ((m.row_selects_iff w).mp hw), fun m n w hm hn => ?_,
    fun m a b => m.mnemonic_command a b⟩
  exact Mnemonic.Accepts.unique ((m.row_selects_iff w).mp hm) ((n.row_selects_iff w).mp hn)

/-- Settles O4: a word is illegal exactly when no mnemonic accepts it, which is both that no row selects it and that it
is of one of the four kinds; its `CMD` write is the execution of an illegal word. -/
theorem illegalWordsRaiseIllegalCommand : Obligations.IllegalWordsRaiseIllegalCommand := by
  unfold Obligations.IllegalWordsRaiseIllegalCommand
  refine ⟨fun w => ?_, decode_illegal_iff_kind, ?_⟩
  · rw [decode_illegal_iff, forall_mem_opcodeRows]
    exact forall_congr' fun m => not_congr (m.row_selects_iff w).symm
  · rintro s w rest hw hf ⟨e, he⟩
    have hlive : (Ref.served s rest).fault = 0 := hf
    rw [step_of_cmdWrite hw, execWord_of_illegal hlive he]
    rfl

end Sys2Proof.Machine
end

section
/-! SUPPORT. GF(256) as powers of α (40_gf.md R100, R101, R104): multiplication by x is linear, so a product by αⁿ is
n multiplications by x, and 255 of them are none. The table ROMs are tied to these powers by their entries alone. -/

namespace Sys2Proof.Machine

open Sys2Proof.Ref

/-! ## Multiplication by x -/

/-- A left shift, reduced by 0x11D when bit 7 falls out (R101). -/
theorem timesX_eq_shiftLeft : ∀ x : Byte, timesX x = (x <<< 1) ^^^ (if x.msb then 0x1D else 0) := by
  decide +kernel

theorem timesX_xor (x y : Byte) : timesX (x ^^^ y) = timesX x ^^^ timesX y := by
  simp only [timesX_eq_shiftLeft, BitVec.shiftLeft_xor_distrib, BitVec.msb_xor]
  have hreduce : (if x.msb ^^ y.msb then 0x1D else 0 : Byte) =
      (if x.msb then 0x1D else 0) ^^^ (if y.msb then 0x1D else 0) := by
    cases x.msb <;> cases y.msb <;> rfl
  rw [hreduce]
  ac_rfl

theorem timesX_zero : timesX 0 = 0 := rfl

theorem timesX_iterate_zero (n : Nat) : timesX^[n] 0 = 0 := Function.iterate_fixed timesX_zero n

/-! ## The field product -/

theorem zero_fieldMul (b : Byte) : fieldMul 0 b = 0 := by
  simp only [fieldMul, timesX_iterate_zero]
  simp

/-- The element 1 selects each bit of the other factor at its own place. -/
theorem one_fieldMul : ∀ b : Byte, fieldMul 1 b = b := by
  decide +kernel

/-- Multiplication by x passes through the sum that defines the product. -/
theorem timesX_fieldMul (a b : Byte) : fieldMul (timesX a) b = timesX (fieldMul a b) := by
  have hstep (acc : Byte) (i : Nat) :
      (if b.getLsbD i then timesX acc ^^^ timesX^[i] (timesX a) else timesX acc) =
        timesX (if b.getLsbD i then acc ^^^ timesX^[i] a else acc) := by
    rw [apply_ite timesX, timesX_xor, ← Function.iterate_succ_apply, Function.iterate_succ_apply']
  exact List.foldl_hom timesX (init := 0) hstep

theorem alphaPow_succ (n : Nat) : alphaPow (n + 1) = timesX (alphaPow n) := Function.iterate_succ_apply' _ _ _

/-- α is x, so a product by αⁿ multiplies by x n times. -/
theorem alphaPow_fieldMul (n : Nat) (b : Byte) : fieldMul (alphaPow n) b = timesX^[n] b := by
  induction n with
  | zero => exact one_fieldMul b
  | succ n ih => rw [alphaPow_succ, timesX_fieldMul, ih, Function.iterate_succ_apply']

theorem timesX_iterate_alphaPow (m n : Nat) : timesX^[m] (alphaPow n) = alphaPow (m + n) :=
  (Function.iterate_add_apply _ _ _ _).symm

/-! ## The entries of the table ROMs -/

theorem expRom_succ : ∀ i < 255, tableGet Rom.fixed.exp (i + 1) = timesX (tableGet Rom.fixed.exp i) := by
  decide +kernel

theorem expRom_logRom : ∀ a : Byte, a ≠ 0 → tableGet Rom.fixed.exp (tableGet Rom.fixed.log a.toNat).toNat = a := by
  decide +kernel

theorem logRom_expRom : ∀ i < 255, (tableGet Rom.fixed.log (tableGet Rom.fixed.exp i).toNat).toNat = i := by
  decide +kernel

theorem logRom_lt : ∀ a : Byte, (tableGet Rom.fixed.log a.toNat).toNat < 255 := by
  decide +kernel

/-- The exponential table is the construction of R101, its circular entry included. -/
theorem expRom_eq_alphaPow : ∀ {i : Nat}, i ≤ 255 → tableGet Rom.fixed.exp i = alphaPow i
  | 0, _ => rfl
  | i + 1, h => by
    have ih := expRom_eq_alphaPow (Nat.le_of_succ_le h)
    rw [expRom_succ i h, ih, alphaPow_succ]

theorem alphaPow_logRom {a : Byte} (ha : a ≠ 0) : alphaPow (tableGet Rom.fixed.log a.toNat).toNat = a := by
  rw [← expRom_eq_alphaPow (logRom_lt a).le, expRom_logRom a ha]

/-! ## α has order 255 -/

theorem alphaPow_255 : alphaPow 255 = 1 := (expRom_eq_alphaPow (le_refl 255)).symm

theorem timesX_iterate_255 (b : Byte) : timesX^[255] b = b := by
  rw [← alphaPow_fieldMul, alphaPow_255, one_fieldMul]

theorem alphaPow_mod (n : Nat) : alphaPow (n % 255) = alphaPow n :=
  Function.IsPeriodicPt.iterate_mod_apply (timesX_iterate_255 1) n

/-- 255 − j multiplications by x undo j of them. -/
theorem timesX_iterate_eq_iff {j : Nat} (hj : j ≤ 255) {p a : Byte} :
    timesX^[j] p = a ↔ p = timesX^[255 - j] a := by
  constructor
  · rintro rfl
    rw [← Function.iterate_add_apply, Nat.sub_add_cancel hj, timesX_iterate_255]
  · rintro rfl
    rw [← Function.iterate_add_apply, Nat.add_sub_cancel' hj, timesX_iterate_255]

/-- No power of α is 0: multiplication by x can be undone, and it keeps 0. -/
theorem alphaPow_ne_zero (n : Nat) : alphaPow n ≠ 0 := by
  rw [← alphaPow_mod]
  intro h
  have hone := (timesX_iterate_eq_iff (Nat.mod_lt n (by decide)).le).mp h
  rw [timesX_iterate_zero] at hone
  cases hone

/-- The right-hand form of `alphaPow_fieldMul`: a factor that is not 0 is a power of α itself. -/
theorem fieldMul_alphaPow (p : Byte) (j : Nat) : fieldMul p (alphaPow j) = timesX^[j] p := by
  by_cases hp : p = 0
  · rw [hp, zero_fieldMul, timesX_iterate_zero]
  · rw [← alphaPow_logRom hp, alphaPow_fieldMul, timesX_iterate_alphaPow, timesX_iterate_alphaPow, Nat.add_comm]

/-! ## The quotient of R105 -/

theorem gfDiv_zero (rom : Rom) (a : Byte) : gfDiv rom a 0 = none := rfl

/-- What `gf_div` leaves for a divisor that is not 0, read from the tables. -/
def tableQuotient (rom : Rom) (a b : Byte) : Byte :=
  if a = 0 then 0
  else tableGet rom.exp (((tableGet rom.log a.toNat).toNat + 255 - (tableGet rom.log b.toNat).toNat) % 255)

theorem gfDiv_of_ne_zero (rom : Rom) (a : Byte) {b : Byte} (hb : b ≠ 0) :
    gfDiv rom a b = some (tableQuotient rom a b) := by
  rw [gfDiv, if_neg hb, tableQuotient, apply_ite some]

/-- The index of R109 as an integer difference. -/
theorem tableQuotient_eq_int (rom : Rom) (a b : Byte) :
    tableQuotient rom a b = if a = 0 then 0 else tableGet rom.exp
      ((((tableGet rom.log a.toNat).toNat : Int) - (tableGet rom.log b.toNat).toNat + 255) % 255).toNat := by
  have hb := (tableGet rom.log b.toNat).isLt
  rw [tableQuotient]
  congr 2
  omega

/-- Division by b = αʲ undoes j multiplications by x. -/
theorem tableQuotient_eq_timesX_iterate (a b : Byte) :
    tableQuotient Rom.fixed a b = timesX^[255 - (tableGet Rom.fixed.log b.toNat).toNat] a := by
  have hb := logRom_lt b
  by_cases ha : a = 0
  · rw [tableQuotient, if_pos ha, ha, timesX_iterate_zero]
  · rw [tableQuotient, if_neg ha, expRom_eq_alphaPow (Nat.mod_lt _ (by decide)).le, alphaPow_mod]
    conv_rhs => rw [← alphaPow_logRom ha, timesX_iterate_alphaPow]
    congr 1
    omega

/-- The quotient is the one byte whose product with the divisor is the dividend. -/
theorem fieldMul_eq_iff_tableQuotient {p a b : Byte} (hb : b ≠ 0) :
    fieldMul p b = a ↔ p = tableQuotient Rom.fixed a b := by
  conv_lhs => rw [← alphaPow_logRom hb, fieldMul_alphaPow]
  rw [tableQuotient_eq_timesX_iterate, timesX_iterate_eq_iff (logRom_lt b).le]

/-! ## Shared by the GF commands -/

/-- Every row of R83 decodes its words to its mnemonic's command. -/
theorem decodesAs_row (m : Mnemonic) : DecodesAs m.row.code m.row.mask m.row.build :=
  forall_mem_opcodeRows.mp opcodeTableRowsDecodeDisjointly.1 m

theorem commandWord_eq_wordOf (op a b : Byte) : commandWord op a b = wordOf op.toNat a b := rfl

/-- Writing `RES` changes nothing else. -/
theorem State.setRes_eq (s : State) (v : Byte) : s.setRes v = { s with res := v } := rfl

end Sys2Proof.Machine
end

section
/-! PROOFS. The statements of 40_gf.md. -/

namespace Sys2Proof.Machine

open Sys2Proof.Ref

/-- Settles O21: a zero divisor has no quotient; any other has the one byte whose product with it is the dividend, as
both are powers of α. -/
theorem gfDivFaultsOnZeroAndElseInvertsTheProduct : Obligations.GfDivFaultsOnZeroAndElseInvertsTheProduct := by
  unfold Obligations.GfDivFaultsOnZeroAndElseInvertsTheProduct
  refine ⟨decodesAs_row .gfDiv, fun s a hf => ?_, fun s a b hf hrom hb => ?_⟩
  · rw [exec_gfDiv_none s (gfDiv_zero s.toRom a), command_live hf, State.raise_eq, encode, commandWord_eq_wordOf]
    rfl
  · refine ⟨tableQuotient s.toRom a b, ?_, fun p => ?_, tableQuotient_eq_int s.toRom a b⟩
    · rw [exec_gfDiv_some s (gfDiv_of_ne_zero s.toRom a hb), command_live hf, State.setRes_eq]
    · rw [hrom]
      exact fieldMul_eq_iff_tableQuotient hb

/-- Settles O22: each entry of the exponential table is a power of α, and no power of α is 0. -/
theorem gfExpIsThePowerOfAlpha : Obligations.GfExpIsThePowerOfAlpha := by
  unfold Obligations.GfExpIsThePowerOfAlpha
  refine ⟨decodesAs_row .gfExp, fun s a hf hrom => ?_⟩
  have hentry : tableGet s.exp a.toNat = alphaPow a.toNat := by
    rw [hrom, expRom_eq_alphaPow (Nat.le_of_lt_succ a.isLt)]
  refine ⟨?_, hentry, alphaPow_ne_zero _, alphaPow_255⟩
  rw [exec_gfExp, command_live hf, State.setRes_eq, hentry]

/-- Settles O23: the logarithm table holds the exponent of each byte but 0, and 0 for the byte 0. -/
theorem gfLogIsTheExponent : Obligations.GfLogIsTheExponent := by
  unfold Obligations.GfLogIsTheExponent
  refine ⟨decodesAs_row .gfLog, fun s a hf hrom => ⟨tableGet s.log a.toNat, ?_, rfl, ?_, ?_⟩⟩
  · rw [exec_gfLog, command_live hf, State.setRes_eq]
  · rintro rfl
    rw [hrom]
    rfl
  · intro ha
    rw [hrom]
    exact ⟨logRom_lt a, alphaPow_logRom ha⟩

/-- Settles O16: the exponential table by induction on the index, the logarithm table as its inverse. -/
theorem tableRomsFollowTheConstruction : Obligations.TableRomsFollowTheConstruction := by
  unfold Obligations.TableRomsFollowTheConstruction
  refine ⟨fun i hi => expRom_eq_alphaPow hi.le, rfl, fun i hi => ?_, rfl⟩
  rw [← expRom_eq_alphaPow hi.le, logRom_expRom i hi]

/-- Settles O19: both commands have the same effect, the exclusive or. -/
theorem gfAddAndSubAreExclusiveOr : Obligations.GfAddAndSubAreExclusiveOr := by
  unfold Obligations.GfAddAndSubAreExclusiveOr
  refine ⟨decodesAs_row .gfAdd, decodesAs_row .gfSub, fun s a b hf => ⟨?_, ?_⟩⟩
  · rw [exec_gfAdd, command_live hf, State.setRes_eq]
  · rw [exec_gfSub, command_live hf, State.setRes_eq]

end Sys2Proof.Machine
end

section
/-! SUPPORT. The two outcomes of `BS.PACK` on a unit that is not faulted (42_bitstream.md R153, R154). -/

namespace Sys2Proof.Machine

variable {s : State}

/-- A length past the capacity is refused before any write (R154). -/
theorem exec_bsPack_of_long (hf : s.fault = 0) (hlong : 18 ≤ s.len.toNat) :
    exec .bsPack s = .next (s.raise .inputTooLong (encode .bsPack)) := by
  rw [exec_bsPack, if_pos (Nat.lt_of_succ_le hlong), command_live hf]

/-- A length within the capacity is packed (R153). -/
theorem exec_bsPack_of_fits (hf : s.fault = 0) (hfits : s.len.toNat ≤ 17) :
    exec .bsPack s = .next (packBody s) := by
  rw [exec_bsPack, if_neg hfits.not_gt, command_live hf]

/-- Packing writes `CW` and nothing else (R153). -/
theorem packBody_eq (s : State) : packBody s = { s with cw := (packBody s).cw } := rfl

end Sys2Proof.Machine
end

section
/-! PROOFS. The statements of 42_bitstream.md. -/

namespace Sys2Proof.Machine

/-- Settles O29: a length past the capacity raises the fault and writes nothing else; one within it packs, which keeps
`FAULT`. -/
theorem inputLengthLimitIsSeventeen : Obligations.InputLengthLimitIsSeventeen := by
  unfold Obligations.InputLengthLimitIsSeventeen
  intro s hf
  by_cases hlong : 18 ≤ s.len.toNat
  · refine ⟨_, exec_bsPack_of_long hf hlong, iff_of_true rfl hlong, fun _ => ⟨rfl, s.raise_eq _ _⟩, fun hfits => ?_⟩
    omega
  · have hfault : (packBody s).fault = 0 := by rw [packBody_eq, hf]
    refine ⟨_, exec_bsPack_of_fits hf (Nat.le_of_not_lt hlong), iff_of_false ?_ hlong, fun h => absurd h hlong,
      fun _ => hfault⟩
    rw [hfault]
    decide

end Sys2Proof.Machine
end

section
/-! SUPPORT. The masker (44_mask_format.md R200, R201): which modules its loop inverts, and that inverting them twice
inverts none. -/

namespace Sys2Proof.Machine

/-! ## The encoding region -/

/-- The structural-mask ROM holds 0 exactly in the encoding region (R33, R175, R176). -/
theorem gridGet_smaskRom :
    ∀ r < 21, ∀ c < 21, gridGet Rom.fixed.smask r c = if Ref.inRegion r c then 0 else 1 := by
  decide +kernel

theorem inGrid_natCast (r c : Nat) : inGrid r c = decide (r < 21 ∧ c < 21) := by
  simp only [inGrid, decide_eq_decide]
  omega

theorem lt_of_inRegion {r c : Nat} (h : Ref.inRegion r c = true) : r < 21 ∧ c < 21 := by
  simp only [Ref.inRegion, Bool.and_eq_true, decide_eq_true_eq] at h
  omega

/-- The predicate read from the structural-mask ROM is the one of R175. -/
theorem regionOf_smaskRom (r c : Nat) : regionOf Rom.fixed.smask r c = Ref.inRegion r c := by
  rw [regionOf, inGrid_natCast, Int.toNat_natCast, Int.toNat_natCast]
  by_cases hrc : r < 21 ∧ c < 21
  · rw [gridGet_smaskRom r hrc.1 c hrc.2]
    cases Ref.inRegion r c <;> simp [hrc]
  · have hout : Ref.inRegion r c = false := Bool.eq_false_iff.mpr (mt lt_of_inRegion hrc)
    simp [hrc, hout]

/-! ## The masked modules -/

/-- The condition of the masker's loop at the module `p` (R201). -/
def isMasked (smask : Grid) (p : Nat × Nat) : Bool := regionOf smask p.1 p.2 && mask0 p.1 p.2

/-- One turn of the masker's loop (R201). -/
theorem maskModule_eq (smask : Grid) : maskModule smask
    = fun g p => if isMasked smask p then gridPut g p.1 p.2 (gridGet g p.1 p.2 ^^^ 1) else g := rfl

theorem isMasked_smaskRom (r c : Nat) :
    isMasked Rom.fixed.smask (r, c) = true ↔ Ref.inRegion r c = true ∧ (r + c) % 2 = 0 := by
  simp [isMasked, regionOf_smaskRom, mask0]

theorem mem_allModules_of_isMasked {smask : Grid} {r c : Nat} (h : isMasked smask (r, c) = true) :
    (r, c) ∈ allModules := by
  simp only [isMasked, regionOf, inGrid_natCast, Bool.and_eq_true, decide_eq_true_eq] at h
  obtain ⟨⟨hin, -⟩, -⟩ := h
  exact mem_allModules.mpr hin

/-! ## The masked state -/

variable (s : State)

/-- The loop of R201 inverts each masked module once and keeps the others. -/
theorem gridGet_maskBody (r c : Nat) :
    gridGet (maskBody s).grid r c
      = if isMasked s.smask (r, c) then gridGet s.grid r c ^^^ 1 else gridGet s.grid r c := by
  rw [maskBody, State.setGrid_grid, maskModule_eq, gridGet_update_loop _ (fun _ m => m ^^^ 1) _ nodup_allModules
    fun _ => mem_allModules.mp]
  simp only [and_iff_right_of_imp mem_allModules_of_isMasked]

/-- Writing `GRID` changes nothing else. -/
theorem State.setGrid_eq (g : Grid) : s.setGrid g = { s with grid := g } := rfl

/-- Masking writes `GRID` and nothing else (R201). -/
theorem maskBody_eq : maskBody s = { s with grid := (maskBody s).grid } := by
  rw [maskBody, State.setGrid_grid, State.setGrid_eq]

theorem maskBody_smask : (maskBody s).smask = s.smask := by
  rw [maskBody, State.setGrid_toRom]

/-- Masking is its own inverse, whatever the structural mask holds. -/
theorem maskBody_maskBody : maskBody (maskBody s) = s := by
  have hgrid : (maskBody (maskBody s)).grid = s.grid := by
    refine grid_ext fun r _ c _ => ?_
    rw [gridGet_maskBody, gridGet_maskBody, maskBody_smask]
    by_cases h : isMasked s.smask (r, c) = true
    · rw [if_pos h, if_pos h, BitVec.xor_assoc, BitVec.xor_self, BitVec.xor_zero]
    · rw [if_neg h, if_neg h]
  rw [maskBody_eq, hgrid, maskBody_eq]

/-- `MK.MASK0` on a unit that is not faulted. -/
theorem exec_mkMask0_of_live {s : State} (hf : s.fault = 0) : exec .mkMask0 s = .next (maskBody s) := by
  rw [exec_mkMask0, command_live hf]

end Sys2Proof.Machine
end

section
/-! PROOFS. The statements of 44_mask_format.md. -/

namespace Sys2Proof.Machine

/-- Settles O33: the loop inverts the masked modules, which with the fixed ROM are those of the statement, and a second
loop inverts them back. -/
theorem mkMask0InvertsEvenRegionModules : Obligations.MkMask0InvertsEvenRegionModules := by
  unfold Obligations.MkMask0InvertsEvenRegionModules
  refine ⟨decodesAs_row .mkMask0, fun s hf hrom =>
    ⟨maskBody s, exec_mkMask0_of_live hf, maskBody_eq s, fun r c => ?_, ?_⟩⟩
  · rw [gridGet_maskBody, hrom]
    simp only [isMasked_smaskRom]
  · have hlive : (maskBody s).fault = 0 := by rw [maskBody_eq, hf]
    rw [exec_mkMask0_of_live hlive, maskBody_maskBody]

end Sys2Proof.Machine
end

section
/-! SUPPORT. The fault record (60_exceptions.md R231 to R234): the word a fault records, what a command that runs does to
`FAULT` and `FCMD`, and which served events keep them while the unit is faulted. -/

namespace Sys2Proof

/-! ## The word a fault records -/

/-- A word of `m` is built from its opcode and its operands, an operand the command does not use being 0. -/
theorem Mnemonic.encode_command {m : Mnemonic} {a b : Byte} (h : m.UnusedZero a b) :
    encode (m.command a b) = commandWord m.opcode a b := by
  obtain ⟨ha, hb⟩ := h
  cases m with
  | gfExp | gfLog =>
    obtain rfl := hb (by decide)
    rfl
  | bsPack | mxSeed | mxPlace | mkMask0 | fwWrite | run =>
    obtain rfl := ha (by decide)
    obtain rfl := hb (by decide)
    rfl
  | _ => rfl

/-- A legal word is the word of the command it decodes to, so `FCMD` keeps the word the host wrote (R232). -/
theorem encode_of_decode {w : Word} {i : Instr} (h : decode w = .ok i) : encode i = w := by
  by_cases hm : ∃ m : Mnemonic, m.Accepts w
  · obtain ⟨m, hacc⟩ := hm
    obtain rfl : m.command (fieldA w) (fieldB w) = i := Except.ok.inj ((decode_of_accepts hacc).symm.trans h)
    obtain ⟨hop, hrsv, hunused⟩ := hacc
    rw [Mnemonic.encode_command hunused, ← hop, commandWord_fields hrsv]
  · obtain ⟨e, he⟩ := (decode_illegal_iff w).mpr (not_exists.mp hm)
    rw [he] at h
    cases h

end Sys2Proof

namespace Sys2Proof.Machine

/-! ## What a command that runs does to the fault record -/

/-- The command raises the fault of R231 and nothing else, or it raises none and keeps the fault record. -/
def RaisesOrKeeps (i : Instr) (s : State) : Prop :=
  (∃ c : FaultCode, c.code = Ref.raises i s ∧ exec i s = .next (s.raise c (encode i))) ∨
  (Ref.raises i s = 0 ∧ ∃ t, exec i s = .next t ∧ t.fault = s.fault ∧ t.fcmd = s.fcmd)

variable {s : State}

theorem gfDiv_raisesOrKeeps (hf : s.fault = 0) (a b : Byte) : RaisesOrKeeps (.gfDiv a b) s := by
  by_cases hb : b = 0
  · subst hb
    exact .inl ⟨.divisionByZero, rfl, by rw [exec_gfDiv_none s (gfDiv_zero s.toRom a), command_live hf]⟩
  · refine .inr ⟨if_neg hb, s.setRes (tableQuotient s.toRom a b), ?_, State.setRes_fault _ _, State.setRes_fcmd _ _⟩
    rw [exec_gfDiv_some s (gfDiv_of_ne_zero s.toRom a hb), command_live hf]

/-- The checks of R133 on the operands as numbers give the codes of R231. -/
theorem raises_rsEnc (n e : Byte) (s : State) :
    Ref.raises (.rsEnc n e) s = ((rsCheck n.toNat e.toNat).map FaultCode.code).getD 0 := by
  have hn : n.toNat = 0 ↔ n = 0 := BitVec.toNat_inj (y := 0)
  have he : e.toNat = 0 ↔ e = 0 := BitVec.toNat_inj (y := 0)
  have he7 : e.toNat = 7 ↔ e = 7 := BitVec.toNat_inj (y := 7)
  simp only [Ref.raises, rsCheck, Config.nEc, Config.nData, ne_eq, gt_iff_lt, hn, he, he7]
  split_ifs <;> rfl

theorem rsEnc_raisesOrKeeps (hf : s.fault = 0) (n e : Byte) : RaisesOrKeeps (.rsEnc n e) s := by
  cases hcheck : rsCheck n.toNat e.toNat with
  | some c =>
    refine .inl ⟨c, by rw [raises_rsEnc, hcheck]; rfl, ?_⟩
    rw [exec_rsEnc_some s hcheck, command_live hf]
  | none =>
    refine .inr ⟨by rw [raises_rsEnc, hcheck]; rfl, rsBody n.toNat s, ?_, State.setCw_fault _ _, State.setCw_fcmd _ _⟩
    rw [exec_rsEnc_none s hcheck, command_live hf]

theorem bsPack_raisesOrKeeps (hf : s.fault = 0) : RaisesOrKeeps .bsPack s := by
  by_cases hlen : s.len.toNat > 17
  · exact .inl ⟨.inputTooLong, (if_pos hlen).symm, exec_bsPack_of_long hf hlen⟩
  · exact .inr ⟨if_neg hlen, packBody s, exec_bsPack_of_fits hf (Nat.le_of_not_gt hlen), State.setCw_fault _ _,
      State.setCw_fcmd _ _⟩

/-- No stage of `RUN` writes the fault record (R220). -/
theorem runBody_keeps (s : State) : (runBody s).fault = s.fault ∧ (runBody s).fcmd = s.fcmd := by
  simp [runBody, formatBody, maskBody, placeBody, rsBody, packBody, seedBody]

theorem run_raisesOrKeeps (hf : s.fault = 0) : RaisesOrKeeps .run s := by
  by_cases hlen : s.len.toNat > 17
  · refine .inl ⟨.inputTooLong, (if_pos hlen).symm, ?_⟩
    rw [exec_run, if_pos hlen, command_live hf]
  · refine .inr ⟨if_neg hlen, runBody s, ?_, runBody_keeps s⟩
    rw [exec_run, if_neg hlen, command_live hf]

/-- Every command that runs raises exactly the fault its own checks give (R231), and writes nothing else then (R232). -/
theorem exec_raisesOrKeeps (hf : s.fault = 0) (i : Instr) : RaisesOrKeeps i s := by
  cases i with
  | gfDiv a b => exact gfDiv_raisesOrKeeps hf a b
  | rsEnc n e => exact rsEnc_raisesOrKeeps hf n e
  | bsPack => exact bsPack_raisesOrKeeps hf
  | run => exact run_raisesOrKeeps hf
  | gfAdd | gfSub | gfMul | gfExp | gfLog =>
    exact .inr ⟨rfl, _, command_live hf _, State.setRes_fault _ _, State.setRes_fcmd _ _⟩
  | mxSeed | mxPlace | mkMask0 | fwWrite =>
    exact .inr ⟨rfl, _, command_live hf _, State.setGrid_fault _ _, State.setGrid_fcmd _ _⟩

/-- The checks of R231 read the operands and `LEN` only. -/
theorem raises_served (i : Instr) (s : State) (rest : List HostEvent) :
    Ref.raises i (Ref.served s rest) = Ref.raises i s := by
  cases i <;> rfl

/-! ## What keeps the fault record of a faulted unit -/

/-- A host store reaches no fault register (R52). -/
theorem State.store_keeps {t : State} {v : Word} {l : Location} (h : s.store v l = some t) :
    t.fault = s.fault ∧ t.fcmd = s.fcmd := by
  cases l with
  | len | ibuf | cw | grid =>
    cases h
    exact ⟨rfl, rfl⟩
  | _ => cases h

/-- Every event but a reset keeps the fault record of a faulted unit (R233, R234). -/
theorem serve_keeps_of_faulted {t : State} {e : HostEvent} (hf : s.fault ≠ 0) (he : e ≠ .reset)
    (h : serve e s = .next t) : t.fault = s.fault ∧ t.fcmd = s.fcmd := by
  obtain ⟨_, v, -, -, rfl⟩ | ⟨w, -, hw⟩ | ⟨_, _, -, -, hstore⟩ | ⟨hreset, -⟩ := serve_cases h
  · exact ⟨State.returns_fault _ v, State.returns_fcmd _ v⟩
  · rw [execWord_refused hf] at hw
    cases hw
    exact ⟨rfl, rfl⟩
  · exact State.store_keeps hstore
  · exact absurd hreset he

end Sys2Proof.Machine
end

section
/-! PROOFS. The statements of 60_exceptions.md. -/

namespace Sys2Proof.Machine

/-- Settles O40: an illegal word raises IllegalCommand; a legal one runs its command, which raises the fault its checks
give, with the written word as the recorded one, or keeps the fault record. -/
theorem cmdWriteRaisesExactlyTheTableFaults : Obligations.CmdWriteRaisesExactlyTheTableFaults := by
  unfold Obligations.CmdWriteRaisesExactlyTheTableFaults
  intro s w rest hw hf
  have hlive : (Ref.served s rest).fault = 0 := hf
  rw [step_of_cmdWrite hw]
  cases hd : decode w with
  | error e =>
    exact ⟨_, execWord_of_illegal hlive hd, rfl, fun _ => rfl,
      fun h => absurd h FaultCode.illegalCommand.code_ne_zero, FaultCode.illegalCommand.code_le_seven⟩
  | ok i =>
    rw [execWord_of_decode hd]
    obtain ⟨c, hc, hexec⟩ | ⟨hnone, t, hexec, hfault, hfcmd⟩ := exec_raisesOrKeeps hlive i
    · rw [encode_of_decode hd] at hexec
      rw [raises_served] at hc
      exact ⟨_, hexec, hc, fun _ => rfl, fun h => absurd h c.code_ne_zero, c.code_le_seven⟩
    · rw [raises_served] at hnone
      have hzero : t.fault = 0 := hfault.trans hlive
      exact ⟨t, hexec, hzero.trans hnone.symm, fun h => absurd hzero h, fun _ => hfcmd, by rw [hzero]; decide⟩

/-- Settles O9: a faulted unit refuses every command, and the accesses that are no command do not read `FAULT`. -/
theorem commandsAreRefusedWhileFaulted : Obligations.CommandsAreRefusedWhileFaulted := by
  unfold Obligations.CommandsAreRefusedWhileFaulted
  intro s rest hf
  refine ⟨fun w hw => ?_, exec_refused hf, fun l v hv h => readsAs_of_load l rfl hv rest h,
    fun v h => step_write_of_store .len rfl h rfl, fun i v h => step_write_of_store (.ibuf i) rfl h rfl,
    fun k v h => step_write_of_store (.cw k) rfl h rfl, fun r c v h => step_write_of_store (.grid r c) rfl h rfl⟩
  have hfaulted : (Ref.served s rest).fault ≠ 0 := hf
  rw [step_of_cmdWrite hw, execWord_refused hfaulted]

/-- Settles O41: with no event pending the state is kept, a reset zeroes the fault record, and every other event keeps
it. -/
theorem onlyResetLeavesTheFaultedState : Obligations.OnlyResetLeavesTheFaultedState := by
  unfold Obligations.OnlyResetLeavesTheFaultedState
  intro s t hf h
  obtain ⟨hidle, rfl⟩ | ⟨e, rest, hnext, hserve⟩ := step_cases h
  · rw [hidle]
    exact ⟨fun _ => ⟨rfl, rfl⟩, nofun⟩
  · rw [hnext, List.head?_cons, ne_eq, Option.some_inj]
    refine ⟨fun he => serve_keeps_of_faulted (s := s.take rest) hf he hserve, ?_⟩
    rintro rfl
    cases hserve
    exact ⟨State.resetBy_fault _, State.resetBy_fcmd _⟩

end Sys2Proof.Machine
end

section
/-! SUPPORT. Encoding the other way round: every command is the command of a mnemonic, and the assembler of command
statements emits the words its mnemonic accepts (30_encoding.md R82, R86). -/

namespace Sys2Proof

/-- Every command is its mnemonic's command on its operands, with 0 for the operands it does not have. -/
theorem Instr.exists_command (i : Instr) : ∃ (m : Mnemonic) (a b : Byte), m.UnusedZero a b ∧ m.command a b = i := by
  cases i with
  | gfAdd a b => exact ⟨.gfAdd, a, b, ⟨nofun, nofun⟩, rfl⟩
  | gfSub a b => exact ⟨.gfSub, a, b, ⟨nofun, nofun⟩, rfl⟩
  | gfMul a b => exact ⟨.gfMul, a, b, ⟨nofun, nofun⟩, rfl⟩
  | gfDiv a b => exact ⟨.gfDiv, a, b, ⟨nofun, nofun⟩, rfl⟩
  | gfExp a => exact ⟨.gfExp, a, 0, ⟨nofun, fun _ => rfl⟩, rfl⟩
  | gfLog a => exact ⟨.gfLog, a, 0, ⟨nofun, fun _ => rfl⟩, rfl⟩
  | rsEnc n e => exact ⟨.rsEnc, n, e, ⟨nofun, nofun⟩, rfl⟩
  | bsPack => exact ⟨.bsPack, 0, 0, ⟨fun _ => rfl, fun _ => rfl⟩, rfl⟩
  | mxSeed => exact ⟨.mxSeed, 0, 0, ⟨fun _ => rfl, fun _ => rfl⟩, rfl⟩
  | mxPlace => exact ⟨.mxPlace, 0, 0, ⟨fun _ => rfl, fun _ => rfl⟩, rfl⟩
  | mkMask0 => exact ⟨.mkMask0, 0, 0, ⟨fun _ => rfl, fun _ => rfl⟩, rfl⟩
  | fwWrite => exact ⟨.fwWrite, 0, 0, ⟨fun _ => rfl, fun _ => rfl⟩, rfl⟩
  | run => exact ⟨.run, 0, 0, ⟨fun _ => rfl, fun _ => rfl⟩, rfl⟩

/-- The decoder reads each command from its word. -/
theorem decode_encode (i : Instr) : decode (encode i) = .ok i := by
  obtain ⟨m, a, b, hunused, rfl⟩ := i.exists_command
  rw [Mnemonic.encode_command hunused, decode_commandWord, decodeFields_of_unusedZero hunused]

/-! ## The assembler -/

/-- The operand field `k` of a statement's word (R86). -/
def CommandStatement.field (c : CommandStatement) (k : Nat) : Byte := BitVec.ofNat 8 (c.operands.getD k 0)

variable {c : CommandStatement}

/-- The two checks of R86 as one statement. -/
theorem CommandStatement.wf_iff :
    c.wf = true ↔ c.operands.length = c.mnemonic.arity ∧ ∀ v ∈ c.operands, v ≤ 255 := by
  simp [wf, arityOk, rangeOk]

theorem CommandStatement.assemble_isSome_iff : c.assemble.isSome = true ↔ c.wf = true := by
  rw [assemble, Option.isSome_ite]

/-- What an accepted statement assembles to. -/
theorem CommandStatement.assemble_eq_some {w : Word} (h : c.assemble = some w) :
    c.wf = true ∧ w = commandWord c.mnemonic.opcode (c.field 0) (c.field 1) := by
  rw [assemble, Option.ite_none_right_eq_some, Option.some_inj] at h
  exact ⟨h.1, h.2.symm⟩

/-- An operand in 0..255 stands in its field as it is. -/
theorem CommandStatement.field_toNat (h : c.wf = true) (k : Nat) : (c.field k).toNat = c.operands.getD k 0 := by
  obtain ⟨-, hrange⟩ := wf_iff.mp h
  have hk : c.operands.getD k 0 ≤ 255 := by
    by_cases hk : k < c.operands.length
    · rw [List.getD_eq_getElem _ _ hk]
      exact hrange _ (List.getElem_mem hk)
    · rw [List.getD_eq_default _ _ (Nat.le_of_not_lt hk)]
      decide
  exact Nat.mod_eq_of_lt (Nat.lt_succ_of_le hk)

/-- An operand the statement does not give leaves its field 0. -/
theorem CommandStatement.field_eq_zero {k : Nat} (h : c.operands.length ≤ k) : c.field k = 0 := by
  rw [field, List.getD_eq_default _ _ h]
  rfl

/-- The fields of an accepted statement fit its mnemonic. -/
theorem CommandStatement.unusedZero (h : c.wf = true) : c.mnemonic.UnusedZero (c.field 0) (c.field 1) := by
  obtain ⟨harity, -⟩ := wf_iff.mp h
  rw [Mnemonic.UnusedZero, ← harity]
  exact ⟨fun hlt => field_eq_zero (Nat.le_of_lt_succ hlt), fun hlt => field_eq_zero (Nat.le_of_lt_succ hlt)⟩

end Sys2Proof
end

section
/-! PROOFS. The statements of 30_encoding.md on the round trip and the assembler. -/

namespace Sys2Proof.Machine

/-- Settles O1: a command's word is built from its mnemonic's opcode and its operands, and the decoder reads them back. -/
theorem decodeOfEncodeIsTheCommand : Obligations.DecodeOfEncodeIsTheCommand := by
  unfold Obligations.DecodeOfEncodeIsTheCommand
  exact decode_encode

/-- Settles O2: a legal word is accepted by one mnemonic and is rebuilt from its fields. -/
theorem legalWordIsTheWordOfItsCommand : Obligations.LegalWordIsTheWordOfItsCommand := by
  unfold Obligations.LegalWordIsTheWordOfItsCommand
  exact fun _ _ => encode_of_decode

/-- Settles O5: the decoder evaluated on the written words. -/
theorem decodeOfWrittenOutWords : Obligations.DecodeOfWrittenOutWords := by
  unfold Obligations.DecodeOfWrittenOutWords
  exact ⟨rfl, rfl, rfl, rfl, rfl, rfl, rfl, rfl, .unknownOpcode, rfl⟩

/-- Settles O6: the checks of the assembler are the two of the statement, and the fields of an accepted statement fit its
mnemonic, so its word decodes. -/
theorem assemblerAcceptsExactlyLegalStatements : Obligations.AssemblerAcceptsExactlyLegalStatements := by
  unfold Obligations.AssemblerAcceptsExactlyLegalStatements
  intro c
  refine ⟨CommandStatement.assemble_isSome_iff.trans CommandStatement.wf_iff, fun w hw => ?_⟩
  obtain ⟨hwf, rfl⟩ := CommandStatement.assemble_eq_some hw
  refine ⟨⟨c.mnemonic.command (c.field 0) (c.field 1), ?_, Mnemonic.mnemonic_command _ _ _⟩, ?_, ?_⟩
  · rw [decode_commandWord, decodeFields_of_unusedZero (CommandStatement.unusedZero hwf)]
  · exact (congrArg BitVec.toNat (fieldA_commandWord _ _ _)).trans (CommandStatement.field_toNat hwf 0)
  · exact (congrArg BitVec.toNat (fieldB_commandWord _ _ _)).trans (CommandStatement.field_toNat hwf 1)

end Sys2Proof.Machine
end

section
/-! SUPPORT. Everything a command can do (60_exceptions.md R230 to R233): it is refused, or raises the fault of its own
checks, or has the effect of its rule. -/

namespace Sys2Proof.Machine

/-- The state a command leaves when it runs and raises no fault: the body of its rule. -/
def bodyOf : Instr → State → State
  | .gfAdd a b, s => s.setRes (a ^^^ b)
  | .gfSub a b, s => s.setRes (a ^^^ b)
  | .gfMul a b, s => s.setRes (gfMul s.toRom a b)
  | .gfDiv a b, s => s.setRes (tableQuotient s.toRom a b)
  | .gfExp a, s => s.setRes (tableGet s.exp a.toNat)
  | .gfLog a, s => s.setRes (tableGet s.log a.toNat)
  | .rsEnc n _, s => rsBody n.toNat s
  | .bsPack, s => packBody s
  | .mxSeed, s => seedBody s
  | .mxPlace, s => placeBody s
  | .mkMask0, s => maskBody s
  | .fwWrite, s => formatBody s
  | .run, s => runBody s

variable {i : Instr} {s t : State}

/-- An `RS.ENC` whose operands give no code passes every check of R133. -/
theorem rsCheck_eq_none {n e : Byte} (h : Ref.raises (.rsEnc n e) s = 0) : rsCheck n.toNat e.toNat = none := by
  rw [raises_rsEnc] at h
  cases hcheck : rsCheck n.toNat e.toNat with
  | none => rfl
  | some c =>
    rw [hcheck] at h
    exact absurd h c.code_ne_zero

/-- A command whose checks all pass has the effect of its rule. -/
theorem exec_of_raises_zero (hf : s.fault = 0) (h : Ref.raises i s = 0) : exec i s = .next (bodyOf i s) := by
  rw [← command_live hf (bodyOf i s)]
  cases i with
  | gfDiv a b =>
    have hb : b ≠ 0 := fun hzero => absurd ((if_pos hzero).symm.trans h) (by decide)
    exact exec_gfDiv_some s (gfDiv_of_ne_zero _ _ hb)
  | rsEnc n e => exact exec_rsEnc_none s (rsCheck_eq_none h)
  | bsPack =>
    have hlen : ¬ s.len.toNat > 17 := fun hlong => absurd ((if_pos hlong).symm.trans h) (by decide)
    rw [exec_bsPack, if_neg hlen, bodyOf]
  | run =>
    have hlen : ¬ s.len.toNat > 17 := fun hlong => absurd ((if_pos hlong).symm.trans h) (by decide)
    rw [exec_run, if_neg hlen, bodyOf]
  | _ => rfl

/-- A command one of whose checks fails records its code and its word, and does nothing else (R232). -/
theorem exec_of_raises_eq {code : BitVec 4} (hf : s.fault = 0) (hcode : Ref.raises i s = code) (hne : code ≠ 0) :
    exec i s = .next { s with fault := code, fcmd := encode i } := by
  subst hcode
  obtain ⟨c, hc, hexec⟩ | ⟨hnone, -⟩ := exec_raisesOrKeeps hf i
  · rw [hexec, State.raise_eq, hc]
  · exact absurd hnone hne

/-- Everything a command can do. -/
theorem exec_cases (h : exec i s = .next t) :
    (s.fault ≠ 0 ∧ t = s) ∨
    (s.fault = 0 ∧ ∃ c : FaultCode, c.code = Ref.raises i s ∧ t = s.raise c (encode i)) ∨
    (s.fault = 0 ∧ Ref.raises i s = 0 ∧ t = bodyOf i s) := by
  by_cases hf : s.fault = 0
  · obtain ⟨c, hc, hexec⟩ | ⟨hnone, -⟩ := exec_raisesOrKeeps hf i
    · rw [hexec] at h
      cases h
      exact .inr (.inl ⟨hf, c, hc, rfl⟩)
    · rw [exec_of_raises_zero hf hnone] at h
      cases h
      exact .inr (.inr ⟨hf, hnone, rfl⟩)
  · rw [exec_refused hf] at h
    cases h
    exact .inl ⟨hf, rfl⟩

/-! ## What every body keeps -/

/-- `RUN` writes `CW` and `GRID` and nothing else (R220). -/
theorem runBody_eq (s : State) : runBody s = { s with cw := (runBody s).cw, grid := (runBody s).grid } := by
  simp only [runBody, formatBody, maskBody, placeBody, rsBody, packBody, seedBody, State.setGrid, State.setCw]

/-- No body writes more than `RES`, `CW` and `GRID` (R67). -/
theorem bodyOf_eq (i : Instr) (s : State) :
    bodyOf i s = { s with res := (bodyOf i s).res, cw := (bodyOf i s).cw, grid := (bodyOf i s).grid } := by
  cases i with
  | run =>
    have hres : (runBody s).res = s.res := by rw [runBody_eq]
    simp only [bodyOf, hres]
    exact runBody_eq s
  | rsEnc | bsPack => simp only [bodyOf, rsBody, packBody, State.setCw]
  | mxSeed | mxPlace | mkMask0 | fwWrite =>
    simp only [bodyOf, seedBody, placeBody, maskBody, formatBody, State.setGrid]
  | _ => simp only [bodyOf, State.setRes]

/-- No command writes a ROM, `LEN`, `IBUF` or the host's side of the port (R66, R67). -/
theorem exec_eq (h : exec i s = .next t) : t = { s with
    res := t.res, fault := t.fault, fcmd := t.fcmd, cw := t.cw, grid := t.grid } := by
  obtain ⟨-, rfl⟩ | ⟨-, c, -, rfl⟩ | ⟨-, -, rfl⟩ := exec_cases h
  · rfl
  · rfl
  · rw [bodyOf_eq]

end Sys2Proof.Machine
end

section
/-! SUPPORT. The reset values, and the invariant of the unit (10_state.md R29 to R33, 60_exceptions.md R231, R232): an
explained fault record, and the events that keep the ROMs. -/

namespace Sys2Proof.Machine

variable {s t : State}

/-- A zeroed buffer (R261). -/
theorem bufGet_replicate_zero {n : Nat} (i : Nat) : bufGet (Vector.replicate n 0) i = 0 := by
  by_cases h : i < n <;> simp [bufGet, h]

/-! ## An explained fault record -/

/-- No fault and a zero word explain each other. -/
theorem faultExplained_zero : faultExplained 0 0 = true := rfl

/-- The code of a legal word's command is explained by that word. -/
theorem faultExplained_raises {i : Instr} (h : Ref.raises i s ≠ 0) :
    faultExplained (Ref.raises i s) (encode i) = true := by
  cases i with
  | gfDiv a b =>
    rw [Ref.raises, ite_ne_right_iff] at h
    rw [Ref.raises, if_pos h.1, faultExplained, decode_encode]
    exact beq_iff_eq.mpr h.1
  | rsEnc n e =>
    by_cases hn : n = 0
    · rw [Ref.raises, if_pos hn, faultExplained, decode_encode]
      exact beq_iff_eq.mpr hn
    by_cases he : e = 0
    · rw [Ref.raises, if_neg hn, if_pos he, faultExplained, decode_encode]
      change (n != 0 && e == 0) = true
      exact Bool.and_eq_true_iff.mpr ⟨bne_iff_ne.mpr hn, beq_iff_eq.mpr he⟩
    by_cases he7 : e = 7
    · rw [Ref.raises, if_neg hn, if_neg he, if_neg (not_not.mpr he7), ite_ne_right_iff] at h
      rw [Ref.raises, if_neg hn, if_neg he, if_neg (not_not.mpr he7), if_pos h.1, faultExplained, decode_encode]
      change (e == 7 && decide (n.toNat > 19)) = true
      exact Bool.and_eq_true_iff.mpr ⟨beq_iff_eq.mpr he7, decide_eq_true h.1⟩
    · rw [Ref.raises, if_neg hn, if_neg he, if_pos he7, faultExplained, decode_encode]
      change (n != 0 && e != 0 && e != 7) = true
      simp only [Bool.and_eq_true, bne_iff_ne]
      exact ⟨⟨hn, he⟩, he7⟩
  | bsPack | run =>
    rw [Ref.raises, ite_ne_right_iff] at h
    rw [Ref.raises, if_pos h.1, faultExplained, decode_encode]
    rfl
  | _ => exact absurd rfl h

theorem faultExplained_illegal {w : Word} (h : ∃ e, decode w = .error e) :
    faultExplained FaultCode.illegalCommand.code w = true := by
  obtain ⟨e, he⟩ := h
  rw [faultExplained, he]
  rfl

/-! ## What keeps the invariant -/

theorem Sound.of_eq (h : Sound s) (hrom : t.toRom = s.toRom) (hfault : t.fault = s.fault) (hfcmd : t.fcmd = s.fcmd) :
    Sound t :=
  ⟨hrom.trans h.rom, by rw [hfault, hfcmd]; exact h.fault⟩

theorem Sound.raise (h : Sound s) {c : FaultCode} {w : Word} (hw : faultExplained c.code w = true) :
    Sound (s.raise c w) :=
  ⟨h.rom, hw⟩

theorem Sound.exec (h : Sound s) {i : Instr} (hexec : exec i s = .next t) : Sound t := by
  obtain ⟨-, rfl⟩ | ⟨-, c, hc, rfl⟩ | ⟨-, -, rfl⟩ := exec_cases hexec
  · exact h
  · refine h.raise ?_
    rw [hc]
    exact faultExplained_raises (hc ▸ c.code_ne_zero)
  · rw [bodyOf_eq]
    exact h.of_eq rfl rfl rfl

theorem Sound.execWord (h : Sound s) {w : Word} (hexec : execWord w s = .next t) : Sound t := by
  obtain ⟨-, rfl⟩ | ⟨-, hillegal, rfl⟩ | ⟨-, i, -, hi⟩ := execWord_cases hexec
  · exact h
  · exact h.raise (faultExplained_illegal hillegal)
  · exact h.exec hi

/-- A host store reaches no ROM (R66). -/
theorem State.store_toRom {v : Word} {l : Location} (h : s.store v l = some t) : t.toRom = s.toRom := by
  cases l with
  | len | ibuf | cw | grid =>
    cases h
    rfl
  | _ => cases h

theorem Sound.serve (h : Sound s) {e : HostEvent} (hserve : serve e s = .next t) : Sound t := by
  obtain ⟨_, v, -, -, rfl⟩ | ⟨w, -, hw⟩ | ⟨_, _, -, -, hstore⟩ | ⟨-, rfl⟩ := serve_cases hserve
  · exact h.of_eq (s.returns_toRom v) (s.returns_fault v) (s.returns_fcmd v)
  · exact h.execWord hw
  · obtain ⟨hfault, hfcmd⟩ := State.store_keeps hstore
    exact h.of_eq (State.store_toRom hstore) hfault hfcmd
  · exact ⟨s.resetBy_toRom.trans h.rom, faultExplained_zero⟩

theorem Sound.take (h : Sound s) (rest : List HostEvent) : Sound (s.take rest) :=
  h.of_eq (s.take_toRom rest) (s.take_fault rest) (s.take_fcmd rest)

end Sys2Proof.Machine
end

section
/-! PROOFS. The invariant, the reset and the step (60_exceptions.md R230, 70_reset_and_hazards.md R260 to R262). -/

namespace Sys2Proof.Machine

/-- Settles O47: the reset state holds the fixed ROMs, code 0 and a zero word. -/
theorem resetStateIsSound : Obligations.ResetStateIsSound := by
  unfold Obligations.ResetStateIsSound
  exact ⟨rfl, faultExplained_zero⟩

/-- Settles O48: an idle step holds the state, and every served event keeps the invariant. -/
theorem everyStepKeepsSoundness : Obligations.EveryStepKeepsSoundness := by
  unfold Obligations.EveryStepKeepsSoundness
  intro s t hs h
  obtain ⟨-, rfl⟩ | ⟨e, rest, -, hserve⟩ := step_cases h
  · exact hs
  · exact (hs.take rest).serve hserve

/-- Settles O7: a `CMD` write executes its word, whether legal, refused or illegal. -/
theorem commandWriteRunsTheDecodedCommand : Obligations.CommandWriteRunsTheDecodedCommand := by
  unfold Obligations.CommandWriteRunsTheDecodedCommand
  intro s w rest hw
  rw [step_of_cmdWrite hw]
  refine ⟨fun i hi => execWord_of_decode hi _, fun hf => execWord_refused (s := Ref.served s rest) hf w,
    fun e he hf => ?_⟩
  rw [execWord_of_illegal (s := Ref.served s rest) hf he]
  rfl

/-- Settles O8: with no event pending the step answers the state itself. -/
theorem idleStepHoldsTheState : Obligations.IdleStepHoldsTheState := by
  unfold Obligations.IdleStepHoldsTheState
  intro s h
  rw [step, h]

/-- Settles O15: the reset input keeps the ROMs and the pending events, and puts every other field at its reset value. -/
theorem resetZeroesAllButTheRoms : Obligations.ResetZeroesAllButTheRoms := by
  unfold Obligations.ResetZeroesAllButTheRoms
  refine ⟨fun s rest h => ⟨(s.take rest).resetBy, step_of_inputs h, rfl, rfl, rfl, rfl, bufGet_replicate_zero,
    bufGet_replicate_zero, gridGet_blankGrid, rfl, rfl⟩, rfl, rfl, rfl, rfl, bufGet_replicate_zero,
    bufGet_replicate_zero, gridGet_blankGrid, rfl⟩

end Sys2Proof.Machine
end

section
/-! SUPPORT. The laws of the field product (40_gf.md R100, R112): every factor is 0 or a power of α, and a product by a
power of α is a repeated multiplication by x, which is linear. The table multiplication is this product. -/

namespace Sys2Proof.Machine

open Sys2Proof.Ref

theorem eq_zero_or_alphaPow (a : Byte) : a = 0 ∨ ∃ j, a = alphaPow j :=
  (eq_or_ne a 0).imp_right fun ha => ⟨_, (alphaPow_logRom ha).symm⟩

theorem timesX_iterate_xor (n : Nat) (x y : Byte) : timesX^[n] (x ^^^ y) = timesX^[n] x ^^^ timesX^[n] y := by
  induction n generalizing x y with
  | zero => rfl
  | succ n ih => rw [Function.iterate_succ_apply, timesX_xor, ih, ← Function.iterate_succ_apply,
      ← Function.iterate_succ_apply]

theorem fieldMul_zero (a : Byte) : fieldMul a 0 = 0 := by
  simp [fieldMul]

theorem fieldMul_comm (a b : Byte) : fieldMul a b = fieldMul b a := by
  obtain rfl | ⟨j, rfl⟩ := eq_zero_or_alphaPow b
  · rw [fieldMul_zero, zero_fieldMul]
  · rw [fieldMul_alphaPow, alphaPow_fieldMul]

theorem fieldMul_one (a : Byte) : fieldMul a 1 = a := by
  rw [fieldMul_comm, one_fieldMul]

theorem xor_fieldMul (a b c : Byte) : fieldMul (a ^^^ b) c = fieldMul a c ^^^ fieldMul b c := by
  obtain rfl | ⟨j, rfl⟩ := eq_zero_or_alphaPow c
  · rw [fieldMul_zero, fieldMul_zero, fieldMul_zero, BitVec.xor_self]
    rfl
  · rw [fieldMul_alphaPow, fieldMul_alphaPow, fieldMul_alphaPow, timesX_iterate_xor]

theorem fieldMul_xor (a b c : Byte) : fieldMul a (b ^^^ c) = fieldMul a b ^^^ fieldMul a c := by
  rw [fieldMul_comm, xor_fieldMul, fieldMul_comm b, fieldMul_comm c]

theorem fieldMul_assoc (a b c : Byte) : fieldMul (fieldMul a b) c = fieldMul a (fieldMul b c) := by
  obtain rfl | ⟨k, rfl⟩ := eq_zero_or_alphaPow c
  · rw [fieldMul_zero, fieldMul_zero, fieldMul_zero]
  obtain rfl | ⟨j, rfl⟩ := eq_zero_or_alphaPow b
  · rw [fieldMul_zero, zero_fieldMul, fieldMul_zero]
  rw [fieldMul_alphaPow a, fieldMul_alphaPow _ k, fieldMul_alphaPow _ k, timesX_iterate_alphaPow, fieldMul_alphaPow,
    Function.iterate_add_apply]

/-! ## The table computations of R105 -/

/-- With the fixed ROMs the table multiplication is the product of the polynomials. -/
theorem gfMul_fixed (a b : Byte) : gfMul Rom.fixed a b = fieldMul a b := by
  by_cases hzero : a = 0 ∨ b = 0
  · rw [gfMul, if_pos hzero]
    obtain rfl | rfl := hzero
    · rw [zero_fieldMul]
    · rw [fieldMul_zero]
  · obtain ⟨ha, hb⟩ := not_or.mp hzero
    rw [gfMul, if_neg hzero, expRom_eq_alphaPow (Nat.mod_lt _ (by decide)).le, alphaPow_mod]
    conv_rhs => rw [← alphaPow_logRom ha, ← alphaPow_logRom hb, alphaPow_fieldMul, timesX_iterate_alphaPow]

/-- Division undoes the product by the same factor. -/
theorem tableQuotient_fieldMul (a : Byte) {b : Byte} (hb : b ≠ 0) :
    tableQuotient Rom.fixed (fieldMul a b) b = a :=
  ((fieldMul_eq_iff_tableQuotient hb).mp rfl).symm

theorem fieldMul_tableQuotient (a : Byte) {b : Byte} (hb : b ≠ 0) :
    fieldMul (tableQuotient Rom.fixed a b) b = a :=
  (fieldMul_eq_iff_tableQuotient hb).mpr rfl

end Sys2Proof.Machine
end

section
/-! PROOFS. The product of 40_gf.md R108 and the laws of R112. -/

namespace Sys2Proof.Machine

open Sys2Proof.Ref

/-- Settles O20: the table multiplication is the product of the polynomials, both being sums of exponents of α. -/
theorem gfMulIsTheProductModuloThePolynomial : Obligations.GfMulIsTheProductModuloThePolynomial := by
  unfold Obligations.GfMulIsTheProductModuloThePolynomial
  refine ⟨decodesAs_row .gfMul, fun s a b hf hrom => ?_⟩
  have hprod : gfMul s.toRom a b = fieldMul a b := by rw [hrom, gfMul_fixed]
  refine ⟨?_, by rw [← hprod, gfMul]⟩
  rw [exec_gfMul, command_live hf, State.setRes_eq, hprod]

/-- Settles O24: the laws of the exclusive or, and those of the field product through the table computations. -/
theorem gfFunctionsFormAField : Obligations.GfFunctionsFormAField := by
  unfold Obligations.GfFunctionsFormAField
  intro a b c
  simp only [gfMul_fixed]
  refine ⟨BitVec.xor_self, BitVec.xor_zero, BitVec.xor_comm a b, BitVec.xor_assoc a b c, fieldMul_one a,
    fieldMul_zero a, fieldMul_comm a b, fieldMul_assoc a b c, fieldMul_xor a b c, fun hb => ?_, fun hb => ?_,
    gfDiv_zero _ a, expRom_logRom a⟩
  · rw [gfDiv_of_ne_zero _ _ hb, tableQuotient_fieldMul a hb]
  · refine ⟨tableQuotient Rom.fixed 1 b, gfDiv_of_ne_zero _ _ hb, ?_⟩
    rw [fieldMul_comm, fieldMul_tableQuotient 1 hb]

end Sys2Proof.Machine
end

section
/-! SUPPORT. The division of 41_rs.md R132 as a seven-stage register: one step of the division loop cancels the first
byte that is left and adds a multiple of the generator to the seven after it. -/

namespace Sys2Proof.Machine

open Sys2Proof.Ref

theorem xor_self_eq_zero (x : Byte) : x ^^^ x = 0 := BitVec.xor_self

/-- A shorter sequence added to the front of a longer one, byte by byte. -/
def addFront : List Byte → List Byte → List Byte
  | r :: rs, x :: xs => (x ^^^ r) :: addFront rs xs
  | _, xs => xs

/-- The generator's coefficients below the leading 1 (R130). -/
def genTail : List Byte := [0x7F, 0x7A, 0x9A, 0xA4, 0x0B, 0x44, 0x75]

theorem addFront_addFront : ∀ {ps qs : List Byte} (xs : List Byte), ps.length = qs.length →
    addFront ps (addFront qs xs) = addFront (List.zipWith (· ^^^ ·) qs ps) xs
  | [], [], _, _ => rfl
  | _ :: _, _ :: _, [], _ => rfl
  | p :: ps, q :: qs, x :: xs, h => by
    rw [addFront, addFront, addFront_addFront xs (Nat.succ.inj h), List.zipWith_cons_cons, addFront, BitVec.xor_assoc]

theorem addFront_replicate_zero : ∀ (n : Nat) (xs : List Byte), addFront (List.replicate n 0) xs = xs
  | 0, _ => rfl
  | _ + 1, [] => rfl
  | n + 1, x :: xs => by
    rw [List.replicate_succ, addFront, addFront_replicate_zero, BitVec.ofNat_eq_ofNat, BitVec.xor_zero]

theorem addFront_append_zero : ∀ (rs xs : List Byte), addFront (rs ++ [0]) xs = addFront rs xs
  | [], xs => addFront_replicate_zero 1 xs
  | _ :: _, [] => rfl
  | r :: rs, x :: xs => by
    rw [List.cons_append, addFront, addFront, addFront_append_zero]

theorem addFront_zeros : ∀ {rs : List Byte}, addFront rs (List.replicate rs.length 0) = rs
  | [] => rfl
  | r :: rs => by
    rw [List.length_cons, List.replicate_succ, addFront, addFront_zeros, BitVec.ofNat_eq_ofNat, BitVec.zero_xor]

/-! ## The division loop -/

/-- A loop that adds `v j` to byte `j`, from the front. -/
theorem foldl_set_eq_addFront (n : Nat) (v : Nat → Byte) (w : List Byte) :
    (List.range n).foldl (fun w j => w.set j (w.getD j 0 ^^^ v j)) w = addFront ((List.range n).map v) w := by
  induction n generalizing v w with
  | zero => rfl
  | succ n ih =>
    rw [List.range_succ_eq_map, List.foldl_cons, List.foldl_map, List.map_cons, List.map_map]
    cases w with
    | nil => exact List.foldl_fixed' (fun _ => rfl) _
    | cons x w =>
      rw [List.set_cons_zero, List.getD_cons_zero, addFront, ← ih (v ∘ Nat.succ) w]
      exact List.foldl_hom (List.cons (x ^^^ v 0)) fun _ _ => rfl

/-- Cancelling at position 0 adds the multiple of the generator to the front. -/
theorem rsCancel_zero (f : Byte) (w : List Byte) :
    rsCancel Rom.fixed f 0 w = addFront (f :: genTail.map (fieldMul f)) w := by
  have hmul : f :: genTail.map (fieldMul f)
      = (List.range 8).map fun j => gfMul Rom.fixed f (bufGet Rom.fixed.gen j) := by
    simp only [gfMul_fixed]
    nth_rw 1 [← fieldMul_one f]
    rfl
  rw [hmul, ← foldl_set_eq_addFront, rsCancel]
  simp only [Nat.zero_add, gfSub, gfAdd]

/-- Cancelling at position `i + 1` is cancelling at `i` behind the first byte. -/
theorem rsCancel_succ (rom : Rom) (f x : Byte) (i : Nat) (w : List Byte) :
    rsCancel rom f (i + 1) (x :: w) = x :: rsCancel rom f i w := by
  simp only [rsCancel, Nat.add_right_comm i 1]
  exact List.foldl_hom (List.cons x) fun _ _ => rfl

theorem genTail_map_zero : genTail.map (fieldMul 0) = List.replicate 7 0 :=
  List.map_congr_left fun g _ => zero_fieldMul g

/-- The step at position 0: the first byte is the factor, and it cancels itself. -/
theorem rsStep_zero (x : Byte) (w : List Byte) :
    rsStep Rom.fixed (x :: w) 0 = 0 :: addFront (genTail.map (fieldMul x)) w := by
  by_cases hx : x = 0
  · rw [rsStep, List.getD_cons_zero, if_pos hx, hx, genTail_map_zero, addFront_replicate_zero]
  · rw [rsStep, List.getD_cons_zero, if_neg hx, rsCancel_zero, addFront, xor_self_eq_zero]

theorem rsStep_succ (rom : Rom) (x : Byte) (w : List Byte) (i : Nat) :
    rsStep rom (x :: w) (i + 1) = x :: rsStep rom w i := by
  rw [rsStep, rsStep, List.getD_cons_succ, rsCancel_succ, apply_ite (List.cons x)]

theorem foldl_rsStep_succ (rom : Rom) (x : Byte) (is : List Nat) (w : List Byte) :
    (is.map (· + 1)).foldl (rsStep rom) (x :: w) = x :: is.foldl (rsStep rom) w := by
  rw [List.foldl_map]
  exact List.foldl_hom (List.cons x) fun w i => rsStep_succ rom x w i

theorem rsDivide_cons (x : Byte) (w : List Byte) (n : Nat) :
    rsDivide Rom.fixed (x :: w) (n + 1) = 0 :: rsDivide Rom.fixed (addFront (genTail.map (fieldMul x)) w) n := by
  rw [rsDivide, List.range_succ_eq_map, List.foldl_cons, rsStep_zero]
  exact foldl_rsStep_succ _ _ _ _

/-! ## The register -/

theorem length_rsShift {reg : List Byte} (h : reg.length = 7) (x : Byte) : (rsShift reg x).length = 7 := by
  simp [rsShift, h]

theorem length_foldl_rsShift {reg : List Byte} (h : reg.length = 7) (d : List Byte) :
    (d.foldl rsShift reg).length = 7 := by
  induction d generalizing reg with
  | nil => exact h
  | cons x d ih => exact ih (length_rsShift h x)

theorem length_rsEc (d : List Byte) : (rsEc d).length = 7 := length_foldl_rsShift rfl d

/-- One byte through the register: the register moves up one place, and the multiple of the generator is added. -/
theorem rsShift_cons (r x : Byte) (rs : List Byte) :
    rsShift (r :: rs) x = List.zipWith (· ^^^ ·) (rs ++ [0]) (genTail.map (fieldMul (x ^^^ r))) := by
  rw [List.zipWith_map_right]
  rfl

/-- The division of a buffer whose front carries a register's content leaves the register after the same bytes. -/
theorem drop_rsDivide (d : List Byte) {reg : List Byte} (hreg : reg.length = 7) :
    (rsDivide Rom.fixed (addFront reg (d ++ List.replicate 7 0)) d.length).drop d.length = d.foldl rsShift reg := by
  induction d generalizing reg with
  | nil =>
    rw [List.nil_append, ← hreg, addFront_zeros]
    rfl
  | cons x d ih =>
    obtain ⟨r, rs, rfl⟩ := List.exists_cons_of_length_eq_add_one hreg
    have hrs : (genTail.map (fieldMul (x ^^^ r))).length = (rs ++ [0]).length := by
      simp_all [genTail]
    rw [List.cons_append, addFront, List.length_cons, rsDivide_cons, List.drop_succ_cons,
      ← addFront_append_zero rs, addFront_addFront _ hrs, ← rsShift_cons, ih (length_rsShift hreg x), List.foldl_cons]

/-- The remainder of R132 is what the register holds after the data. -/
theorem rsRemainder_fixed (d : List Byte) : rsRemainder Rom.fixed d = rsEc d := by
  rw [rsRemainder, rsEc, ← drop_rsDivide d (List.length_replicate), addFront_replicate_zero]

theorem zipWith_xor_zeros : ∀ {rs : List Byte}, List.zipWith (· ^^^ ·) rs (List.replicate rs.length 0) = rs
  | [] => rfl
  | r :: rs => by
    rw [List.length_cons, List.replicate_succ, List.zipWith_cons_cons, zipWith_xor_zeros, BitVec.ofNat_eq_ofNat,
      BitVec.xor_zero]

/-- A register fed its own content is left with zeros: each byte cancels the stage it meets. -/
theorem foldl_rsShift_self (rs : List Byte) : ∀ k : Nat, rs.length + k = 7 →
    rs.foldl rsShift (rs ++ List.replicate k 0) = List.replicate 7 0 := by
  induction rs with
  | nil =>
    intro k hk
    rw [List.length_nil, Nat.zero_add] at hk
    rw [hk]
    rfl
  | cons r rs ih =>
    intro k hk
    rw [List.length_cons] at hk
    have hzero : rsShift (r :: (rs ++ List.replicate k 0)) r = rs ++ List.replicate (k + 1) 0 := by
      have hlen : 7 = (rs ++ List.replicate (k + 1) 0).length := by
        rw [List.length_append, List.length_replicate]
        omega
      rw [rsShift_cons, xor_self_eq_zero, genTail_map_zero, List.append_assoc, ← List.replicate_succ', hlen,
        zipWith_xor_zeros]
    rw [List.foldl_cons, List.cons_append, hzero, ih (k + 1) (by omega)]

/-- The division over data followed by its remainder leaves zeros (R134). -/
theorem rsEc_append_rsEc (d : List Byte) : rsEc (d ++ rsEc d) = List.replicate 7 0 := by
  have hself := foldl_rsShift_self (rsEc d) 0 (length_rsEc d)
  rw [List.replicate_zero, List.append_nil] at hself
  rw [← hself]
  exact List.foldl_append

end Sys2Proof.Machine
end

section
/-! SUPPORT. Codewords as polynomials (41_rs.md R131, R134): the value of a byte sequence at a point is additive, and at a
root of the generator the register holds the value of the data times x⁷. -/

namespace Sys2Proof.Machine

open Sys2Proof.Ref

variable {x : Byte}

/-! ## Repeated multiplication by a point -/

/-- `v · xⁿ`. -/
def mulPow (x : Byte) (n : Nat) (v : Byte) : Byte := (fun v => fieldMul v x)^[n] v

theorem mulPow_succ (n : Nat) (v : Byte) : mulPow x (n + 1) v = mulPow x n (fieldMul v x) := rfl

theorem mulPow_add (m n : Nat) (v : Byte) : mulPow x (m + n) v = mulPow x m (mulPow x n v) :=
  Function.iterate_add_apply _ _ _ _

theorem fieldMul_mulPow (n : Nat) (v : Byte) : fieldMul (mulPow x n v) x = mulPow x n (fieldMul v x) := by
  rw [← mulPow_succ, Nat.add_comm, mulPow_add]
  rfl

theorem mulPow_xor (n : Nat) (v w : Byte) : mulPow x n (v ^^^ w) = mulPow x n v ^^^ mulPow x n w := by
  induction n generalizing v w with
  | zero => rfl
  | succ n ih => rw [mulPow_succ, xor_fieldMul, ih, ← mulPow_succ, ← mulPow_succ]

theorem mulPow_zero (n : Nat) : mulPow x n 0 = 0 := Function.iterate_fixed (zero_fieldMul x) n

/-- A factor can be taken before or after the power. -/
theorem mulPow_fieldMul (n : Nat) (f v : Byte) : mulPow x n (fieldMul f v) = fieldMul f (mulPow x n v) := by
  induction n generalizing v with
  | zero => rfl
  | succ n ih => rw [mulPow_succ, mulPow_succ, fieldMul_assoc, ih]

/-! ## The value of a byte sequence at a point -/

theorem polyEval_concat (p : List Byte) (c : Byte) : polyEval (p ++ [c]) x = fieldMul (polyEval p x) x ^^^ c :=
  List.foldl_append

theorem polyEval_append (p q : List Byte) :
    polyEval (p ++ q) x = mulPow x q.length (polyEval p x) ^^^ polyEval q x := by
  induction q using List.reverseRecOn with
  | nil =>
    rw [List.append_nil]
    exact BitVec.xor_zero.symm
  | append_singleton q c ih =>
    rw [← List.append_assoc, polyEval_concat, ih, polyEval_concat, xor_fieldMul, fieldMul_mulPow, List.length_append,
      List.length_singleton, mulPow_succ, BitVec.xor_assoc]

theorem polyEval_singleton (c : Byte) : polyEval [c] x = c := by
  rw [← List.nil_append [c], polyEval_concat]
  exact (congrArg (· ^^^ c) (zero_fieldMul x)).trans BitVec.zero_xor

theorem polyEval_cons (c : Byte) (p : List Byte) : polyEval (c :: p) x = mulPow x p.length c ^^^ polyEval p x := by
  rw [← List.singleton_append, polyEval_append, polyEval_singleton]

theorem polyEval_zipWith_xor {p q : List Byte} (h : p.length = q.length) :
    polyEval (List.zipWith (· ^^^ ·) p q) x = polyEval p x ^^^ polyEval q x := by
  induction p generalizing q with
  | nil =>
    obtain rfl := List.eq_nil_of_length_eq_zero h.symm
    exact (xor_self_eq_zero 0).symm
  | cons c p ih =>
    obtain ⟨d, q, rfl⟩ := List.exists_cons_of_length_eq_add_one h.symm
    have hpq : p.length = q.length := Nat.succ.inj h
    rw [List.zipWith_cons_cons, polyEval_cons, polyEval_cons, polyEval_cons, ih hpq, List.length_zipWith, ← hpq,
      Nat.min_self, mulPow_xor]
    ac_rfl

theorem polyEval_map_fieldMul (f : Byte) (p : List Byte) :
    polyEval (p.map (fieldMul f)) x = fieldMul f (polyEval p x) := by
  induction p with
  | nil => exact (fieldMul_zero f).symm
  | cons c p ih => rw [List.map_cons, polyEval_cons, polyEval_cons, ih, List.length_map, mulPow_fieldMul, fieldMul_xor]

/-! ## The roots of the generator -/

/-- The generator vanishes at α⁰ to α⁶ (R130). -/
theorem polyEval_genRom : ∀ i < 7, polyEval Rom.fixed.gen.toList (alphaPow i) = 0 := by
  decide +kernel

/-- At a root of the generator its lower coefficients have the value x⁷. -/
theorem polyEval_genTail {i : Nat} (hi : i < 7) : polyEval genTail (alphaPow i) = mulPow (alphaPow i) 7 1 := by
  have hroot : polyEval (1 :: genTail) (alphaPow i) = 0 := polyEval_genRom i hi
  rw [polyEval_cons] at hroot
  exact (BitVec.xor_eq_zero_iff.mp hroot).symm

/-- One byte through the register multiplies its value by x and adds the byte times x⁷. -/
theorem polyEval_rsShift (hx : polyEval genTail x = mulPow x 7 1) {reg : List Byte} (hreg : reg.length = 7) (d : Byte) :
    polyEval (rsShift reg d) x = fieldMul (polyEval reg x) x ^^^ mulPow x 7 d := by
  obtain ⟨r, rs, rfl⟩ := List.exists_cons_of_length_eq_add_one hreg
  have hrs : rs.length = 6 := Nat.succ.inj hreg
  have hlen : (rs ++ [0]).length = (genTail.map (fieldMul (d ^^^ r))).length := by
    rw [List.length_append, hrs]
    rfl
  calc polyEval (rsShift (r :: rs) d) x
      = fieldMul (polyEval rs x) x ^^^ mulPow x 7 (d ^^^ r) := by
        rw [rsShift_cons, polyEval_zipWith_xor hlen, polyEval_concat, polyEval_map_fieldMul, hx, ← mulPow_fieldMul,
          fieldMul_one, BitVec.ofNat_eq_ofNat, BitVec.xor_zero]
    _ = (fieldMul (mulPow x 6 r) x ^^^ fieldMul (polyEval rs x) x) ^^^ mulPow x 7 d := by
        rw [mulPow_xor, fieldMul_mulPow, ← mulPow_succ]
        ac_rfl
    _ = fieldMul (polyEval (r :: rs) x) x ^^^ mulPow x 7 d := by
        rw [polyEval_cons, hrs, xor_fieldMul]

theorem polyEval_rsEc (hx : polyEval genTail x = mulPow x 7 1) (d : List Byte) :
    polyEval (rsEc d) x = mulPow x 7 (polyEval d x) := by
  induction d using List.reverseRecOn with
  | nil =>
    have hzeros : rsEc [] = genTail.map (fieldMul 0) := genTail_map_zero.symm
    rw [hzeros, polyEval_map_fieldMul, zero_fieldMul]
    exact (mulPow_zero 7).symm
  | append_singleton d c ih =>
    have hstep : rsEc (d ++ [c]) = rsShift (rsEc d) c := List.foldl_append
    rw [hstep, polyEval_rsShift hx (length_rsEc d), ih, polyEval_concat, mulPow_xor, fieldMul_mulPow]

/-- Data followed by its remainder vanishes at each root of the generator (R134). -/
theorem polyEval_codeword {i : Nat} (hi : i < 7) (d : List Byte) : polyEval (d ++ rsEc d) (alphaPow i) = 0 := by
  rw [polyEval_append, length_rsEc, polyEval_rsEc (polyEval_genTail hi), xor_self_eq_zero]

/-! ## The command -/

variable {s : State}

/-- `RS.ENC` writes `CW` and nothing else (R133). -/
theorem rsBody_eq (n : Nat) (s : State) : rsBody n s = { s with cw := (rsBody n s).cw } := by
  simp only [rsBody, State.setCw]

/-- What `RS.ENC` leaves in each entry of `CW` (R133). -/
theorem bufGet_rsBody (hrom : RomFixed s) (n k : Nat) :
    bufGet (rsBody n s).cw k
      = if n ≤ k ∧ k < n + 7 ∧ k < 26 then (rsEc (cwList s n)).getD (k - n) 0 else bufGet s.cw k := by
  rw [rsBody, State.setCw_cw, cwPutEc, bufGet_fill, hrom, rsRemainder_fixed]
  rfl

theorem raises_rsEnc_seven {n : Byte} (hn : 1 ≤ n.toNat) (hn' : n.toNat ≤ 19) : raises (.rsEnc n 7) s = 0 := by
  have hcheck : rsCheck n.toNat (7 : Byte).toNat = none := by
    simp [rsCheck, Nat.one_le_iff_ne_zero.mp hn, hn']
  rw [raises_rsEnc, hcheck]
  rfl

/-- `RS.ENC` completes on 1 to 19 data codewords (R133). -/
theorem exec_rsEnc_seven (hf : s.fault = 0) {n : Byte} (hn : 1 ≤ n.toNat) (hn' : n.toNat ≤ 19) :
    exec (.rsEnc n 7) s = .next (rsBody n.toNat s) :=
  exec_of_raises_zero hf (raises_rsEnc_seven hn hn')

theorem map_range_getD {n : Nat} {l : List Byte} (h : l.length = n) : (List.range n).map (l.getD · 0) = l := by
  apply List.ext_getElem
  · simp [h]
  · intro k _ hk
    simp [hk]

/-- The codeword `RS.ENC` leaves is the data followed by its remainder. -/
theorem cwList_rsBody (hrom : RomFixed s) {n : Nat} (hn : n ≤ 19) :
    cwList (rsBody n s) (n + 7) = cwList s n ++ rsEc (cwList s n) := by
  have hdata : (List.range n).map (bufGet (rsBody n s).cw) = cwList s n := by
    refine List.map_congr_left fun k hk => ?_
    have hk : ¬ (n ≤ k ∧ k < n + 7 ∧ k < 26) := fun hin => (List.mem_range.mp hk).not_ge hin.1
    rw [bufGet_rsBody hrom, if_neg hk]
  have hec : (List.range 7).map (fun j => bufGet (rsBody n s).cw (n + j)) = rsEc (cwList s n) := by
    refine (List.map_congr_left fun j hj => ?_).trans (map_range_getD (length_rsEc (cwList s n)))
    have hj7 := List.mem_range.mp hj
    have hin : n ≤ n + j ∧ n + j < n + 7 ∧ n + j < 26 := by omega
    rw [bufGet_rsBody hrom, if_pos hin, Nat.add_sub_cancel_left]
  rw [← hec, ← hdata, cwList, List.range_add, List.map_append, List.map_map]
  rfl

end Sys2Proof.Machine
end

section
/-! PROOFS. The statements of 41_rs.md. -/

namespace Sys2Proof.Machine

open Sys2Proof.Ref

/-- Settles O17: the leading coefficient is 1, and the seven values are evaluated. -/
theorem generatorRomHasSevenRoots : Obligations.GeneratorRomHasSevenRoots := by
  unfold Obligations.GeneratorRomHasSevenRoots
  exact ⟨rfl, polyEval_genRom⟩

/-- Settles O25: the four checks are those of the fault table, in its order; the remainder of the division loop is the
content of the register. -/
theorem rsEncChecksThenWritesTheRemainder : Obligations.RsEncChecksThenWritesTheRemainder := by
  unfold Obligations.RsEncChecksThenWritesTheRemainder
  refine ⟨decodesAs_row .rsEnc, fun s n e hf => ⟨fun hn => ?_, fun hn he => ?_, fun hn he he7 => ?_, fun hn he7 => ?_⟩,
    fun s n hf hrom hn hn' => ⟨_, exec_rsEnc_seven hf hn hn', rsBody_eq _ s, fun j hj => ?_, fun k hk => ?_⟩⟩
  · exact exec_of_raises_eq hf (if_pos hn) (by decide)
  · exact exec_of_raises_eq hf ((if_neg hn).trans (if_pos he)) (by decide)
  · exact exec_of_raises_eq hf ((if_neg hn).trans ((if_neg he).trans (if_pos he7))) (by decide)
  · subst he7
    have hn0 : n ≠ 0 := by
      rintro rfl
      exact absurd hn (by decide)
    exact exec_of_raises_eq hf ((if_neg hn0).trans (if_pos hn)) (by decide)
  · have hin : n.toNat ≤ n.toNat + j ∧ n.toNat + j < n.toNat + 7 ∧ n.toNat + j < 26 := by omega
    rw [bufGet_rsBody hrom, if_pos hin, Nat.add_sub_cancel_left]
  · rw [bufGet_rsBody hrom, if_neg fun hin => hk ⟨hin.1, hin.2.1⟩]

/-- Settles O26: the command leaves the data followed by its remainder, which vanishes at every root of the generator. -/
theorem encodedCodewordsVanishAtTheRoots : Obligations.EncodedCodewordsVanishAtTheRoots := by
  unfold Obligations.EncodedCodewordsVanishAtTheRoots
  intro s n hf hrom hn hn'
  refine ⟨_, exec_rsEnc_seven hf hn hn', fun i hi => ?_⟩
  rw [cwList_rsBody hrom hn', polyEval_codeword hi]

/-- Settles O27: the register that holds a remainder is emptied by it. -/
theorem remainderOfDataWithItsRemainderIsZero : Obligations.RemainderOfDataWithItsRemainderIsZero := by
  unfold Obligations.RemainderOfDataWithItsRemainderIsZero
  intro d _ _
  rw [rsRemainder_fixed, rsRemainder_fixed, rsEc_append_rsEc]

end Sys2Proof.Machine
end

section
/-! SUPPORT. The packer (42_bitstream.md R150 to R154) as a row of half bytes: output byte `i` joins the low half of one
source byte to the high half of the next, the sources being mode, length and input. -/

namespace Sys2Proof.Machine

open Sys2Proof.Ref

/-- Mode, length, then the input bytes: what the stream of R150 is made of. -/
def packSource (len : Byte) (S : Nat → Byte) : Nat → Byte
  | 0 => 4
  | 1 => len
  | i + 2 => S i

/-- The low half of one byte and the high half of the next. -/
def joinHalves (x y : Byte) : Byte := (x <<< 4) ||| (y >>> 4)

theorem joinHalves_zero (x : Byte) : joinHalves x 0 = x <<< 4 := by
  rw [joinHalves, BitVec.ofNat_eq_ofNat, BitVec.zero_ushiftRight, BitVec.or_zero]

/-- The pad byte number `k` (R150). -/
def padByte (k : Nat) : Byte := if k % 2 = 0 then 0xEC else 0x11

variable (len : Byte) (S : Nat → Byte) (ibuf : Vector Byte 17)

/-! ## The payload loop -/

/-- The output buffer and the cursor after `m` turns of the payload loop of R151. -/
def payloadState (m : Nat) : Vector Byte 19 × Nat :=
  (List.range m).foldl (fun oc i => packChar oc (bufGet ibuf i)) (packHeader len, 1)

theorem payloadState_succ (m : Nat) :
    payloadState len ibuf (m + 1) = packChar (payloadState len ibuf m) (bufGet ibuf m) := by
  simp [payloadState, List.range_succ]

theorem payloadState_snd (m : Nat) : (payloadState len ibuf m).2 = m + 1 := by
  induction m with
  | zero => rfl
  | succ m ih => rw [payloadState_succ, packChar, ih]

/-- After `m` turns the bytes up to `m` are complete, and the next one holds the low half of the last source. -/
theorem bufGet_payloadState {m : Nat} (hm : m ≤ 17) (i : Nat) :
    bufGet (payloadState len ibuf m).1 i
      = if i ≤ m then joinHalves (packSource len (bufGet ibuf) i) (packSource len (bufGet ibuf) (i + 1))
        else if i = m + 1 then packSource len (bufGet ibuf) i <<< 4 else 0 := by
  induction m generalizing i with
  | zero =>
    simp only [payloadState, List.range_zero, List.foldl_nil, packHeader, bufGet_bufPut, bufGet_replicate_zero]
    match i with
    | 0 => rfl
    | 1 => rfl
    | i + 2 => simp
  | succ m ih =>
    have ih := ih (Nat.le_of_succ_le hm)
    simp only [payloadState_succ, packChar, payloadState_snd, bufGet_bufPut, ih]
    obtain hdone | rfl | rfl | hlater : i ≤ m ∨ i = m + 1 ∨ i = m + 2 ∨ m + 2 < i := by omega
    · rw [if_neg (by omega), if_neg (by omega), if_pos hdone, if_pos (by omega)]
    · rw [if_neg (by omega), if_pos (by omega), if_neg (by omega), if_pos le_rfl]
      rfl
    · rw [if_pos (by omega), if_neg (by omega), if_pos rfl]
      rfl
    · rw [if_neg (by omega), if_neg (by omega), if_neg (by omega), if_neg (by omega), if_neg (by omega),
        if_neg (by omega)]

/-! ## The packed bytes -/

/-- What the packer leaves at `i`: joined halves, the terminator's byte, then pads. -/
theorem bufGet_pack (hlen : len.toNat ≤ 17) {i : Nat} (hi : i < 19) :
    bufGet (pack len ibuf) i
      = if i ≤ len.toNat then joinHalves (packSource len (bufGet ibuf) i) (packSource len (bufGet ibuf) (i + 1))
        else if i = len.toNat + 1 then joinHalves (packSource len (bufGet ibuf) i) 0
        else padByte (i - (len.toNat + 2)) := by
  have hpads : bufGet (pack len ibuf) i
      = if len.toNat + 2 ≤ i ∧ i < len.toNat + 2 + (17 - len.toNat) ∧ i < 19 then padByte (i - (len.toNat + 2))
        else bufGet (payloadState len ibuf len.toNat).1 i :=
    bufGet_fill _ _ padByte _ _
  rw [hpads, bufGet_payloadState len ibuf hlen, joinHalves_zero]
  by_cases hdata : i ≤ len.toNat
  · rw [if_neg (by omega), if_pos hdata, if_pos hdata]
  · by_cases hend : i = len.toNat + 1
    · rw [if_neg (by omega), if_neg hdata, if_pos hend, if_neg hdata, if_pos hend]
    · rw [if_pos (by omega), if_neg hdata, if_neg hend]

/-- The closed form of R152. -/
theorem packedByte_eq (i : Nat) :
    packedByte len S i
      = if i ≤ len.toNat then joinHalves (packSource len S i) (packSource len S (i + 1))
        else if i = len.toNat + 1 then joinHalves (packSource len S i) 0 else padByte (i - (len.toNat + 2)) := by
  have hlow : ∀ x : Byte, (x &&& 0xF) <<< 4 = x <<< 4 := by decide
  match i with
  | 0 => rfl
  | 1 =>
    rw [packedByte, if_neg one_ne_zero, if_pos rfl, hlow]
    by_cases hlen : 1 ≤ len.toNat
    · rw [if_pos hlen, if_pos hlen]
      rfl
    · have hzero : len = 0 := BitVec.eq_of_toNat_eq (Nat.lt_one_iff.mp (Nat.lt_of_not_le hlen))
      subst hzero
      have hend : 1 = (0 : Byte).toNat + 1 := rfl
      rw [if_neg hlen, if_neg hlen, if_pos hend, joinHalves_zero]
      rfl
  | i + 2 =>
    rw [packedByte, if_neg (by omega), if_neg (by omega), hlow, hlow]
    by_cases hend : i + 2 = len.toNat + 1
    · have hlast : len.toNat - 1 = i := by omega
      rw [if_neg (by omega), if_pos hend, if_neg (by omega), if_pos hend, joinHalves_zero, hlast]
      rfl
    · rw [if_neg hend, if_neg hend]
      rfl

/-- The packer's bytes are those of the closed form. -/
theorem bufGet_pack_eq_packedByte (hlen : len.toNat ≤ 17) {i : Nat} (hi : i < 19) :
    bufGet (pack len ibuf) i = packedByte len (bufGet ibuf) i := by
  rw [bufGet_pack len ibuf hlen hi, packedByte_eq]

/-- What `BS.PACK` leaves in each entry of `CW` (R153). -/
theorem bufGet_packBody (s : State) (k : Nat) :
    bufGet (packBody s).cw k = if k < 19 then bufGet (pack s.len s.ibuf) k else bufGet s.cw k := by
  have hfill := bufGet_fill 0 19 (bufGet (pack s.len s.ibuf)) s.cw k
  have hin : (0 ≤ k ∧ k < 0 + 19 ∧ k < 26) ↔ k < 19 := by omega
  simp only [Nat.zero_add, hin, Nat.sub_zero] at hfill
  exact hfill

/-! ## The stream of R150 -/

theorem bitsMsb_add (m n v : Nat) : bitsMsb (m + n) v = bitsMsb m (v >>> n) ++ bitsMsb n v := by
  rw [bitsMsb, List.range_add, List.map_append, List.map_map]
  congr 1
  · refine List.map_congr_left fun i hi => ?_
    have him := List.mem_range.mp hi
    rw [Nat.testBit_shiftRight]
    congr 1
    omega
  · refine List.map_congr_left fun i _ => ?_
    rw [Function.comp_apply]
    congr 1
    omega

theorem bitsMsb_toNat (n : Nat) (x : Byte) : bitsMsb n x.toNat = (List.range n).map (fun i => x.getLsbD (n - 1 - i)) :=
  rfl

/-- The four high bits of a byte, most significant first. -/
def highBits (x : Byte) : List Bool := bitsMsb 4 (x >>> 4).toNat

/-- The four low bits of a byte, most significant first. -/
def lowBits (x : Byte) : List Bool := bitsMsb 4 x.toNat

theorem bitsMsb_eight (x : Byte) : bitsMsb 8 x.toNat = highBits x ++ lowBits x := by
  rw [bitsMsb_add 4 4, highBits, lowBits, BitVec.toNat_ushiftRight]

theorem bitsMsb_joinHalves (x y : Byte) : bitsMsb 8 (joinHalves x y).toNat = lowBits x ++ highBits y := by
  simp only [lowBits, highBits, bitsMsb_toNat, joinHalves]
  simp [List.range_succ]

/-- Joined halves in a row are the sources in a row, half a byte further on. -/
theorem flatMap_joinHalves (src : Nat → Byte) (m : Nat) :
    (List.range m).flatMap (fun i => bitsMsb 8 (joinHalves (src i) (src (i + 1))).toNat) ++ lowBits (src m)
      = lowBits (src 0) ++ (List.range m).flatMap (fun i => bitsMsb 8 (src (i + 1)).toNat) := by
  induction m with
  | zero => simp
  | succ m ih =>
    rw [List.range_succ, List.flatMap_append, List.flatMap_append, List.flatMap_singleton, List.flatMap_singleton,
      bitsMsb_joinHalves, ← List.append_assoc, ih, bitsMsb_eight]
    simp only [List.append_assoc]

/-- The bits of the closed form are the stream. -/
theorem flatMap_packedByte (hlen : len.toNat ≤ 17) :
    (List.range 19).flatMap (fun i => bitsMsb 8 (packedByte len S i).toNat) = stream len.toNat S := by
  have hsplit : 19 = (len.toNat + 1) + 1 + (17 - len.toNat) := by omega
  have hdata : (List.range (len.toNat + 1)).flatMap (fun i => bitsMsb 8 (packedByte len S i).toNat)
      = (List.range (len.toNat + 1)).flatMap
          (fun i => bitsMsb 8 (joinHalves (packSource len S i) (packSource len S (i + 1))).toNat) := by
    refine List.flatMap_congr fun i hi => ?_
    rw [packedByte_eq, if_pos (Nat.le_of_lt_succ (List.mem_range.mp hi))]
  have hlast : packedByte len S (len.toNat + 1) = joinHalves (packSource len S (len.toNat + 1)) 0 := by
    rw [packedByte_eq, if_neg (Nat.not_succ_le_self _), if_pos rfl]
  have hpads : ((List.range (17 - len.toNat)).map (len.toNat + 1 + 1 + ·)).flatMap
        (fun i => bitsMsb 8 (packedByte len S i).toNat)
      = (List.range (17 - len.toNat)).flatMap (fun k => bitsMsb 8 (if k % 2 = 0 then 0xEC else 0x11)) := by
    rw [List.flatMap_map]
    refine List.flatMap_congr fun k _ => ?_
    rw [packedByte_eq, if_neg (by omega), if_neg (by omega), Nat.add_sub_cancel_left, padByte, apply_ite BitVec.toNat]
    rfl
  have hsources : (List.range (len.toNat + 1)).flatMap (fun i => bitsMsb 8 (packSource len S (i + 1)).toNat)
      = bitsMsb 8 len.toNat ++ (List.range len.toNat).flatMap (fun i => bitsMsb 8 (S i).toNat) := by
    rw [List.range_succ_eq_map, List.flatMap_cons, List.flatMap_map]
    rfl
  calc (List.range 19).flatMap (fun i => bitsMsb 8 (packedByte len S i).toNat)
      = ((List.range (len.toNat + 1)).flatMap
            (fun i => bitsMsb 8 (joinHalves (packSource len S i) (packSource len S (i + 1))).toNat)
          ++ lowBits (packSource len S (len.toNat + 1))) ++ highBits 0
          ++ (List.range (17 - len.toNat)).flatMap (fun k => bitsMsb 8 (if k % 2 = 0 then 0xEC else 0x11)) := by
        rw [hsplit, List.range_add, List.range_succ, List.flatMap_append, List.flatMap_append, List.flatMap_singleton,
          hdata, hlast, hpads, bitsMsb_joinHalves, ← List.append_assoc]
    _ = stream len.toNat S := by
        rw [flatMap_joinHalves, hsources, stream, ← List.append_assoc]
        rfl

end Sys2Proof.Machine
end

section
/-! PROOFS. The statements of 42_bitstream.md on the packed bytes. -/

namespace Sys2Proof.Machine

open Sys2Proof.Ref

/-- Settles O28: the capacity check comes first; the packed bytes are those of the closed form. -/
theorem bsPackChecksLengthThenPacksTheInput : Obligations.BsPackChecksLengthThenPacksTheInput := by
  unfold Obligations.BsPackChecksLengthThenPacksTheInput
  refine ⟨decodesAs_row .bsPack, fun s hf hlong => ?_, fun s hf hfits =>
    ⟨_, exec_bsPack_of_fits hf hfits, packBody_eq s, fun k hk => ?_, fun k hk => ?_⟩⟩
  · exact exec_of_raises_eq hf (if_pos hlong) (by decide)
  · rw [bufGet_packBody, if_pos hk, bufGet_pack_eq_packedByte _ _ hfits hk]
  · rw [bufGet_packBody, if_neg hk.not_gt]

/-- Settles O30: the bytes of the closed form, bit by bit, are the sources in a row, a terminator and the pads. -/
theorem packedBitsAreTheStream : Obligations.PackedBitsAreTheStream := by
  unfold Obligations.PackedBitsAreTheStream
  intro s hf hfits
  refine ⟨_, exec_bsPack_of_fits hf hfits, ?_⟩
  rw [← flatMap_packedByte _ _ hfits]
  refine List.flatMap_congr fun k hk => ?_
  have hk19 := List.mem_range.mp hk
  rw [bufGet_packBody, if_pos hk19, bufGet_pack_eq_packedByte _ _ hfits hk19]

end Sys2Proof.Machine
end

section
/-! SUPPORT. Writes to distinct modules, and the grid commands as such writes: the seeded grid, the placement of the
codewords and the format modules (43_matrix.md R171 to R182, 44_mask_format.md R203 to R207). -/

namespace Sys2Proof.Machine

open Sys2Proof.Ref

/-! ## Writes to distinct modules -/

/-- Modules written one after the other. -/
def gridPuts (g : Grid) (ws : List ((Nat × Nat) × Module)) : Grid :=
  ws.foldl (fun g w => gridPut g w.1.1 w.1.2 w.2) g

theorem gridPuts_append (g : Grid) (ws vs : List ((Nat × Nat) × Module)) :
    gridPuts g (ws ++ vs) = gridPuts (gridPuts g ws) vs := List.foldl_append

theorem gridGet_gridPuts_of_notMem {ws : List ((Nat × Nat) × Module)} {r c : Nat} (h : (r, c) ∉ ws.map Prod.fst)
    (g : Grid) : gridGet (gridPuts g ws) r c = gridGet g r c := by
  induction ws generalizing g with
  | nil => rfl
  | cons w ws ih =>
    rw [List.map_cons, List.mem_cons, not_or] at h
    rw [gridPuts, List.foldl_cons]
    exact (ih h.2 _).trans (gridGet_gridPut_ne g w.2 h.1)

theorem gridGet_gridPuts_of_mem {ws : List ((Nat × Nat) × Module)} (hn : (ws.map Prod.fst).Nodup) {r c : Nat}
    (hr : r < 21) (hc : c < 21) {v : Module} (h : ((r, c), v) ∈ ws) (g : Grid) :
    gridGet (gridPuts g ws) r c = v := by
  induction ws generalizing g with
  | nil => cases h
  | cons w ws ih =>
    rw [List.map_cons, List.nodup_cons] at hn
    rw [gridPuts, List.foldl_cons]
    obtain rfl | h := List.mem_cons.mp h
    · exact (gridGet_gridPuts_of_notMem hn.1 _).trans (gridGet_gridPut_same g v hr hc)
    · exact ih hn.2 h _

/-! ## Seeding -/

/-- The seeded grid against the patterns, module by module (R171, R173, R179). -/
theorem gridGet_seedGrid : ∀ r < 21, ∀ c < 21, gridGet seedGrid r c = seededModule r c := by
  decide +kernel

theorem darkCount_seedGrid : darkCount seedGrid = 105 := by
  decide +kernel

/-! ## Placement -/

/-- The module, as an integer pair, that receives bit `7 - j` of the byte the placer begins at a cursor (R180). -/
def cursorModule (c : Cursor) (j : Nat) : Int × Int :=
  ((Cursor.advance^[j / 2] c).row, (Cursor.advance^[j / 2] c).col - (j % 2 : Nat))

/-- One byte is eight module writes, and four pairs of the cursor. -/
theorem placeByte_eq (byte : Byte) (c : Cursor) (g : Grid) :
    placeByte byte (c, g) = (Cursor.advance^[4] c,
      (List.range 8).foldl
        (fun g j => gridPutInt g (cursorModule c j).1 (cursorModule c j).2 (byte.extractLsb' (7 - j) 1)) g) := by
  simp [placeByte, placePair, List.range_succ, cursorModule]

/-- The cursor at which byte `k` begins, with the fixed structural mask. -/
def cursorAt (k : Nat) : Cursor :=
  (List.range k).foldl (fun c k => betweenBytes Rom.fixed.smask k (Cursor.advance^[4] c)) cursorStart

theorem cursorAt_succ (k : Nat) :
    cursorAt (k + 1) = betweenBytes Rom.fixed.smask k (Cursor.advance^[4] (cursorAt k)) := by
  simp [cursorAt, List.range_succ]

/-- The zigzag follows the placement map: R182 by evaluation of R180. -/
theorem cursorModule_cursorAt : ∀ k < 26, ∀ j < 8,
    cursorModule (cursorAt k) j = (((moduleOf k (7 - j)).1 : Int), ((moduleOf k (7 - j)).2 : Int)) := by
  decide +kernel

theorem inRegion_moduleOf : ∀ k < 26, ∀ b < 8, inRegion (moduleOf k b).1 (moduleOf k b).2 = true := by
  decide +kernel

theorem gridPutInt_natCast (g : Grid) {r c : Nat} (hr : r < 21) (hc : c < 21) (v : Module) :
    gridPutInt g r c v = gridPut g r c v := by
  rw [gridPutInt, inGrid_natCast, decide_eq_true ⟨hr, hc⟩, if_pos rfl, Int.toNat_natCast, Int.toNat_natCast]

/-- The modules of codeword `k` in the order of the placement map, with the bits of a byte. -/
def codewordWrites (k : Nat) (byte : Byte) : List ((Nat × Nat) × Module) :=
  (List.range 8).map fun j => (moduleOf k (7 - j), byte.extractLsb' (7 - j) 1)

/-- The 208 module writes of `MX.PLACE` (R181, R182). -/
def placeWrites (cw : Vector Byte 26) (n : Nat) : List ((Nat × Nat) × Module) :=
  (List.range n).flatMap fun k => codewordWrites k (bufGet cw k)

theorem placeWrites_succ (cw : Vector Byte 26) (n : Nat) :
    placeWrites cw (n + 1) = placeWrites cw n ++ codewordWrites n (bufGet cw n) := by
  simp [placeWrites, List.range_succ]

theorem placeByte_cursorAt {k : Nat} (hk : k < 26) (byte : Byte) (g : Grid) :
    placeByte byte (cursorAt k, g) = (Cursor.advance^[4] (cursorAt k), gridPuts g (codewordWrites k byte)) := by
  rw [placeByte_eq, gridPuts, codewordWrites, List.foldl_map]
  congr 1
  refine List.foldl_ext _ _ _ fun g j hj => ?_
  have hj := List.mem_range.mp hj
  obtain ⟨hr, hc⟩ := lt_of_inRegion (inRegion_moduleOf k hk (7 - j) (by omega))
  rw [cursorModule_cursorAt k hk j hj, gridPutInt_natCast g hr hc]

theorem foldl_placeCodeword (cw : Vector Byte 26) (g : Grid) {n : Nat} (hn : n ≤ 26) :
    (List.range n).foldl (placeCodeword Rom.fixed.smask cw) (cursorStart, g)
      = (cursorAt n, gridPuts g (placeWrites cw n)) := by
  induction n with
  | zero => rfl
  | succ n ih =>
    rw [List.range_succ, List.foldl_append, ih (Nat.le_of_succ_le hn), List.foldl_cons, List.foldl_nil, placeCodeword,
      placeByte_cursorAt hn, cursorAt_succ, placeWrites_succ, gridPuts_append]

/-- With the fixed structural mask the placer makes the 208 writes. -/
theorem place_fixed (cw : Vector Byte 26) (g : Grid) :
    place Rom.fixed.smask cw g = gridPuts g (placeWrites cw 26) := by
  rw [place, foldl_placeCodeword cw g le_rfl]

/-- The modules of the placement map. -/
def placedModules : List (Nat × Nat) :=
  (List.range 26).flatMap fun k => (List.range 8).map fun j => moduleOf k (7 - j)

/-- The place of a module in the zigzag (R180): by column pair, then up or down the pair, then right before left. A
column left of the timing column counts as the one after it. -/
def zigzagKey (p : Nat × Nat) : Nat :=
  let c := if p.2 < 6 then p.2 + 1 else p.2
  let pair := (20 - c) / 2
  42 * pair + 2 * (if pair % 2 = 0 then 20 - p.1 else p.1) + c % 2

/-- The placement map lists its modules in the order of the zigzag. -/
theorem isChain_zigzagKey : (placedModules.map zigzagKey).IsChain (· < ·) := by
  decide +kernel

theorem nodup_placedModules : placedModules.Nodup :=
  List.Nodup.of_map zigzagKey ((List.isChain_iff_pairwise.mp isChain_zigzagKey).imp Nat.ne_of_lt)

theorem map_fst_placeWrites (cw : Vector Byte 26) : (placeWrites cw 26).map Prod.fst = placedModules := by
  simp only [placeWrites, codewordWrites, placedModules, List.map_flatMap, List.map_map]
  rfl

theorem mem_placedModules {p : Nat × Nat} : p ∈ placedModules ↔ ∃ k < 26, ∃ b < 8, moduleOf k b = p := by
  simp only [placedModules, List.mem_flatMap, List.mem_map, List.mem_range]
  constructor
  · rintro ⟨k, hk, j, hj, rfl⟩
    exact ⟨k, hk, 7 - j, by omega, rfl⟩
  · rintro ⟨k, hk, b, hb, rfl⟩
    exact ⟨k, hk, 7 - b, by omega, by rw [Nat.sub_sub_self (Nat.le_of_lt_succ hb)]⟩

theorem inRegion_of_mem_placedModules {p : Nat × Nat} (h : p ∈ placedModules) : inRegion p.1 p.2 = true := by
  obtain ⟨k, hk, b, hb, rfl⟩ := mem_placedModules.mp h
  exact inRegion_moduleOf k hk b hb

/-- The encoding region as a list (R175). -/
def regionModules : List (Nat × Nat) := allModules.filter fun p => inRegion p.1 p.2

theorem mem_regionModules {r c : Nat} : (r, c) ∈ regionModules ↔ inRegion r c = true := by
  rw [regionModules, List.mem_filter, mem_allModules]
  exact and_iff_right_of_imp lt_of_inRegion

theorem length_regionModules : regionModules.length = placedModules.length := by
  decide +kernel

/-- The placement map fills the encoding region: its modules are distinct, lie in the region and are as many (R182). -/
theorem placedModules_perm_regionModules : placedModules.Perm regionModules :=
  (List.subperm_of_subset nodup_placedModules fun _ hp =>
    mem_regionModules.mpr (inRegion_of_mem_placedModules hp)).perm_of_length_le length_regionModules.le

theorem inRegion_iff_exists_moduleOf {r c : Nat} : inRegion r c = true ↔ ∃ k < 26, ∃ b < 8, moduleOf k b = (r, c) := by
  rw [← mem_regionModules, ← placedModules_perm_regionModules.mem_iff, mem_placedModules]

variable {s : State}

/-- `MX.PLACE` writes `GRID` and nothing else (R181). -/
theorem placeBody_eq (s : State) : placeBody s = { s with grid := (placeBody s).grid } := by
  simp only [placeBody, State.setGrid]

theorem placeBody_grid (hrom : RomFixed s) : (placeBody s).grid = gridPuts s.grid (placeWrites s.cw 26) := by
  rw [placeBody, State.setGrid_grid, hrom, place_fixed]

/-- `MX.PLACE` puts bit `b` of codeword `k` at its module of the map (R182). -/
theorem gridGet_placeBody_moduleOf (hrom : RomFixed s) {k b : Nat} (hk : k < 26) (hb : b < 8) :
    gridGet (placeBody s).grid (moduleOf k b).1 (moduleOf k b).2 = (bufGet s.cw k).extractLsb' b 1 := by
  obtain ⟨hr, hc⟩ := lt_of_inRegion (inRegion_moduleOf k hk b hb)
  rw [placeBody_grid hrom]
  refine gridGet_gridPuts_of_mem (by rw [map_fst_placeWrites]; exact nodup_placedModules) hr hc ?_ _
  refine List.mem_flatMap.mpr ⟨k, List.mem_range.mpr hk, List.mem_map.mpr ⟨7 - b, List.mem_range.mpr (by omega), ?_⟩⟩
  rw [Nat.sub_sub_self (Nat.le_of_lt_succ hb)]

/-- `MX.PLACE` keeps every module outside the encoding region (R181). -/
theorem gridGet_placeBody_of_not_inRegion (hrom : RomFixed s) {r c : Nat} (h : inRegion r c = false) :
    gridGet (placeBody s).grid r c = gridGet s.grid r c := by
  rw [placeBody_grid hrom]
  refine gridGet_gridPuts_of_notMem ?_ _
  rw [map_fst_placeWrites]
  exact fun hmem => Bool.false_ne_true (h.symm.trans (inRegion_of_mem_placedModules hmem))

/-! ## The format modules -/

/-- The 31 module writes of `FW.WRITE` (R207). -/
def formatWrites (fmtw : BitVec 15) : List ((Nat × Nat) × Module) :=
  (formatPath1.zipIdx ++ formatPath2.zipIdx).map (fun pk => (pk.1, fmtw.extractLsb' pk.2 1)) ++ [(Config.dark, 1)]

theorem formatGrid_eq (fmtw : BitVec 15) (g : Grid) : formatGrid fmtw g = gridPuts g (formatWrites fmtw) := by
  simp only [formatGrid, writePath, formatWrites, gridPuts, List.foldl_append, List.foldl_map, List.foldl_cons,
    List.foldl_nil]

/-- The modules of both paths and the dark module. -/
def formatModules : List (Nat × Nat) := formatPath1 ++ formatPath2 ++ [Config.dark]

theorem map_fst_formatWrites (fmtw : BitVec 15) : (formatWrites fmtw).map Prod.fst = formatModules := rfl

theorem nodup_formatModules : formatModules.Nodup := by
  decide

theorem path1_eq : path1 = formatPath1 := rfl

theorem path2_eq : path2 = formatPath2 := rfl

theorem isFormat_iff {r c : Nat} : isFormat r c = true ↔ (r, c) ∈ formatModules := by
  simp [isFormat, formatModules, path1_eq, path2_eq, or_assoc]

theorem formatModules_lt : ∀ p ∈ formatModules, p.1 < 21 ∧ p.2 < 21 := by
  decide

/-- Every format module is structural (R178). -/
theorem inRegion_of_isFormat {r c : Nat} (h : isFormat r c = true) : inRegion r c = false := by
  have hall : ∀ p ∈ formatModules, inRegion p.1 p.2 = false := by decide
  exact hall _ (isFormat_iff.mp h)

theorem isFormat_path {path : List (Nat × Nat)} (hpath : path = path1 ∨ path = path2) {p : Nat × Nat} (hp : p ∈ path) :
    isFormat p.1 p.2 = true := by
  obtain rfl | rfl := hpath <;> simp [isFormat, hp]

/-- `FW.WRITE` writes `GRID` and nothing else (R207). -/
theorem formatBody_eq (s : State) : formatBody s = { s with grid := (formatBody s).grid } := by
  simp only [formatBody, State.setGrid]

theorem formatBody_grid (hrom : RomFixed s) : (formatBody s).grid = formatGrid fmtwRom s.grid := by
  rw [formatBody, State.setGrid_grid, hrom]
  rfl

theorem gridGet_formatGrid_of_mem {fmtw : BitVec 15} {r c : Nat} {v : Module} (h : ((r, c), v) ∈ formatWrites fmtw)
    (g : Grid) : gridGet (formatGrid fmtw g) r c = v := by
  have hmem : (r, c) ∈ formatModules := map_fst_formatWrites fmtw ▸ List.mem_map_of_mem h
  obtain ⟨hr, hc⟩ := formatModules_lt _ hmem
  rw [formatGrid_eq]
  exact gridGet_gridPuts_of_mem (map_fst_formatWrites fmtw ▸ nodup_formatModules) hr hc h g

/-- Module `k` of each path holds bit `k` of the format word (R205). -/
theorem gridGet_formatGrid_path (fmtw : BitVec 15) (g : Grid) {path : List (Nat × Nat)}
    (hpath : path = path1 ∨ path = path2) {p : Nat × Nat} {k : Nat} (h : (p, k) ∈ path.zipIdx) :
    gridGet (formatGrid fmtw g) p.1 p.2 = fmtw.extractLsb' k 1 := by
  refine gridGet_formatGrid_of_mem (List.mem_append_left _ (List.mem_map.mpr ⟨(p, k), ?_, rfl⟩)) g
  obtain rfl | rfl := hpath
  · exact List.mem_append_left _ h
  · exact List.mem_append_right _ h

theorem gridGet_formatGrid_dark (fmtw : BitVec 15) (g : Grid) : gridGet (formatGrid fmtw g) 13 8 = 1 :=
  gridGet_formatGrid_of_mem (List.mem_append_right _ (List.mem_singleton.mpr rfl)) g

theorem gridGet_formatGrid_of_not_isFormat (fmtw : BitVec 15) (g : Grid) {r c : Nat} (h : isFormat r c = false) :
    gridGet (formatGrid fmtw g) r c = gridGet g r c := by
  rw [formatGrid_eq]
  refine gridGet_gridPuts_of_notMem ?_ g
  rw [map_fst_formatWrites, ← isFormat_iff, h]
  exact Bool.false_ne_true

/-! ## Reading a path back -/

/-- What a path reads back depends on its own modules only. -/
theorem readBack_congr {g h : Grid} {path : List (Nat × Nat)}
    (e : ∀ p ∈ path, gridGet g p.1 p.2 = gridGet h p.1 p.2) : readBack g path = readBack h path := by
  rw [readBack, readBack]
  congr 1
  refine List.map_congr_left fun pk hpk => ?_
  rw [e pk.1 (List.fst_mem_of_mem_zipIdx hpk)]

/-- Both paths read back the fixed format word once they are written (R208). -/
theorem readBack_formatGrid (g : Grid) {path : List (Nat × Nat)} (hpath : path = path1 ∨ path = path2) :
    readBack (formatGrid fmtwRom g) path = 0x77C4 := by
  have hbits : readBack (formatGrid fmtwRom g) path
      = (path.zipIdx.map fun pk => (fmtwRom.extractLsb' pk.2 1).toNat * 2 ^ pk.2).sum := by
    rw [readBack]
    congr 1
    refine List.map_congr_left fun pk hpk => ?_
    rw [gridGet_formatGrid_path fmtwRom g hpath hpk]
  rw [hbits]
  obtain rfl | rfl := hpath <;> rfl

end Sys2Proof.Machine
end

section
/-! PROOFS. The statements of 43_matrix.md and 44_mask_format.md on single commands. -/

namespace Sys2Proof.Machine

open Sys2Proof.Ref

/-- Settles O18: the rows of the ROM against the predicate, module by module. -/
theorem structuralMaskIsTheComplementOfTheRegion : Obligations.StructuralMaskIsTheComplementOfTheRegion := by
  unfold Obligations.StructuralMaskIsTheComplementOfTheRegion
  exact ⟨gridGet_smaskRom, by decide +kernel⟩

/-- Settles O31: the command writes one fixed grid, which is compared with the patterns module by module. -/
theorem mxSeedDrawsFindersAndTimingOnly : Obligations.MxSeedDrawsFindersAndTimingOnly := by
  unfold Obligations.MxSeedDrawsFindersAndTimingOnly
  exact ⟨decodesAs_row .mxSeed, fun s hf => ⟨seedBody s, exec_of_raises_zero hf rfl, rfl, gridGet_seedGrid,
    darkCount_seedGrid⟩⟩

/-- Settles O32: the zigzag makes the 208 writes of the placement map, to distinct modules that fill the region. -/
theorem mxPlacePutsEachCodewordBitAtItsModule : Obligations.MxPlacePutsEachCodewordBitAtItsModule := by
  unfold Obligations.MxPlacePutsEachCodewordBitAtItsModule
  exact ⟨decodesAs_row .mxPlace, fun r _ c _ => inRegion_iff_exists_moduleOf, fun s hf hrom =>
    ⟨placeBody s, exec_of_raises_zero hf rfl, placeBody_eq s,
      fun k hk b hb => gridGet_placeBody_moduleOf hrom hk hb,
      fun r c h => gridGet_placeBody_of_not_inRegion hrom h⟩⟩

/-- Settles O34: the command makes 31 writes to distinct modules, those of the two paths being the bits of the word. -/
theorem fwWriteWritesBothPathsAndTheDarkModule : Obligations.FwWriteWritesBothPathsAndTheDarkModule := by
  unfold Obligations.FwWriteWritesBothPathsAndTheDarkModule
  refine ⟨decodesAs_row .fwWrite, fun s hf hrom => ⟨formatBody s, exec_of_raises_zero hf rfl, formatBody_eq s, ?_⟩⟩
  rw [formatBody_grid hrom]
  refine ⟨fun k hk path hpath => ?_, readBack_formatGrid _ (.inl rfl), readBack_formatGrid _ (.inr rfl),
    gridGet_formatGrid_dark _ _, fun r c h => gridGet_formatGrid_of_not_isFormat _ _ h⟩
  have hpath : path = path1 ∨ path = path2 := by simpa using hpath
  have hlen : k < path.length := by
    obtain rfl | rfl := hpath <;> exact hk
  rw [List.getD_eq_getElem _ _ hlen]
  exact gridGet_formatGrid_path _ _ hpath (List.mk_mem_zipIdx_iff_getElem?.mpr (List.getElem?_eq_getElem hlen))

end Sys2Proof.Machine
end

section
/-! SUPPORT. What each command leaves unchanged (20_memory.md R67, 43_matrix.md R178): the modules and entries outside its
write set, and the host's reads of them. -/

namespace Sys2Proof.Machine

open Sys2Proof.Ref

variable {i j : Instr} {s t : State}

/-! ## The fixed ROMs -/

theorem bodyOf_toRom (i : Instr) (s : State) : (bodyOf i s).toRom = s.toRom := by
  rw [bodyOf_eq]

theorem RomFixed.bodyOf (hrom : RomFixed s) (i : Instr) : RomFixed (bodyOf i s) :=
  (bodyOf_toRom i s).trans hrom

/-- `RUN` is the six commands' bodies in turn (R220). -/
theorem bodyOf_run (s : State) : bodyOf .run s
    = bodyOf .fwWrite (bodyOf .mkMask0 (bodyOf .mxPlace (bodyOf (.rsEnc 19 7) (bodyOf .bsPack (bodyOf .mxSeed s))))) :=
  rfl

/-! ## Modules -/

/-- `MK.MASK0` keeps every module outside the encoding region (R201). -/
theorem gridGet_maskBody_of_not_inRegion (hrom : RomFixed s) {r c : Nat} (h : inRegion r c = false) :
    gridGet (maskBody s).grid r c = gridGet s.grid r c := by
  rw [gridGet_maskBody, hrom, if_neg fun hm => ?_]
  exact Bool.false_ne_true (h.symm.trans ((isMasked_smaskRom r c).mp hm).1)

/-- The body of every command but `MX.SEED`, `FW.WRITE` and `RUN` keeps the structural modules (R178). -/
theorem gridGet_bodyOf_of_not_inRegion (hseed : i ≠ .mxSeed) (hformat : i ≠ .fwWrite) (hrun : i ≠ .run)
    (hrom : RomFixed s) {r c : Nat} (h : inRegion r c = false) :
    gridGet (bodyOf i s).grid r c = gridGet s.grid r c := by
  cases i with
  | mxSeed => exact absurd rfl hseed
  | fwWrite => exact absurd rfl hformat
  | run => exact absurd rfl hrun
  | mxPlace => exact gridGet_placeBody_of_not_inRegion hrom h
  | mkMask0 => exact gridGet_maskBody_of_not_inRegion hrom h
  | rsEnc n e => rw [bodyOf, rsBody_eq]
  | bsPack => rw [bodyOf, packBody_eq]
  | _ => rw [bodyOf, State.setRes_grid]

/-- After `FW.WRITE` or `RUN` has run, the format modules are freshly written (R207, R220). -/
theorem bodyOf_grid_eq_formatGrid (hi : i = .fwWrite ∨ i = .run) (hrom : RomFixed s) :
    ∃ g, (bodyOf i s).grid = formatGrid fmtwRom g := by
  obtain rfl | rfl := hi
  · exact ⟨_, formatBody_grid hrom⟩
  · rw [bodyOf_run]
    exact ⟨_, formatBody_grid (((((hrom.bodyOf .mxSeed).bodyOf .bsPack).bodyOf (.rsEnc 19 7)).bodyOf .mxPlace).bodyOf
      .mkMask0)⟩

/-- After any command but `MX.SEED` the format modules are freshly written, or as they were. -/
theorem exec_formatModules (hseed : i ≠ .mxSeed) (hrom : RomFixed s) (h : exec i s = .next t) :
    (∃ g, t.grid = formatGrid fmtwRom g) ∨ ∀ r c, isFormat r c = true → gridGet t.grid r c = gridGet s.grid r c := by
  obtain ⟨-, rfl⟩ | ⟨-, c, -, rfl⟩ | ⟨-, -, rfl⟩ := exec_cases h
  · exact .inr fun _ _ _ => rfl
  · exact .inr fun _ _ _ => rfl
  · by_cases hi : i = .fwWrite ∨ i = .run
    · exact .inl (bodyOf_grid_eq_formatGrid hi hrom)
    · obtain ⟨hformat, hrun⟩ := not_or.mp hi
      exact .inr fun r c hrc =>
        gridGet_bodyOf_of_not_inRegion hseed hformat hrun hrom (inRegion_of_isFormat hrc)

/-! ## The host's reads -/

theorem State.load_setRes {v : Byte} {l : Location} (h : l ≠ .res) : (s.setRes v).load l = s.load l := by
  cases l with
  | res => exact absurd rfl h
  | _ => rfl

/-- A state that differs in `CW` alone reads as before outside the entries that differ. -/
theorem State.load_of_cw {l : Location} (ht : t = { s with cw := t.cw })
    (h : ∀ k : Fin 26, l = .cw k → bufGet t.cw k = bufGet s.cw k) : t.load l = s.load l := by
  rw [ht]
  cases l with
  | cw k => exact congrArg (fun b : Byte => some (b.setWidth 32)) (h k rfl)
  | _ => rfl

/-- A state that differs in `GRID` alone reads as before outside the modules that differ. -/
theorem State.load_of_grid {l : Location} (ht : t = { s with grid := t.grid })
    (h : ∀ r c : Fin 21, l = .grid r c → gridGet t.grid r c = gridGet s.grid r c) : t.load l = s.load l := by
  rw [ht]
  cases l with
  | grid r c => exact congrArg (fun m : Module => some (m.setWidth 32)) (h r c rfl)
  | _ => rfl

/-- A state that differs in `CW` and `GRID` alone reads as before everywhere else. -/
theorem State.load_of_cw_grid {l : Location} (ht : t = { s with cw := t.cw, grid := t.grid })
    (hcw : ∀ k, l ≠ .cw k) (hgrid : ∀ r c, l ≠ .grid r c) : t.load l = s.load l := by
  rw [ht]
  cases l with
  | cw k => exact absurd rfl (hcw k)
  | grid r c => exact absurd rfl (hgrid r c)
  | _ => rfl

theorem State.load_raise {c : FaultCode} {w : Word} {l : Location} (hfault : l ≠ .fault) (hfcmd : l ≠ .fcmd) :
    (s.raise c w).load l = s.load l := by
  cases l with
  | fault => exact absurd rfl hfault
  | fcmd => exact absurd rfl hfcmd
  | _ => rfl

/-- The operands of an `RS.ENC` that raises no fault (R133). -/
theorem rsEnc_operands {n e : Byte} (h : raises (.rsEnc n e) s = 0) : e = 7 ∧ n.toNat ≤ 19 := by
  have hcheck := rsCheck_eq_none h
  simp only [rsCheck, Config.nEc, Config.nData] at hcheck
  split_ifs at hcheck with _ _ he hn
  exact ⟨BitVec.eq_of_toNat_eq (not_not.mp he), Nat.le_of_not_gt hn⟩

/-- A command that can raise a fault may write both fault registers (R231). -/
theorem mayWrite_fault_of_raises (h : raises i s ≠ 0) : mayWrite i .fault = true ∧ mayWrite i .fcmd = true := by
  cases i with
  | gfDiv | rsEnc | bsPack | run => exact ⟨rfl, rfl⟩
  | _ => exact absurd rfl h

theorem mayWrite_rsEnc_cw (n e : Byte) (k : Fin 26) : mayWrite (.rsEnc n e) (.cw k)
    = (e == 7 && decide (n.toNat ≤ 19) && decide (n.toNat ≤ k.val) && decide (k.val < n.toNat + 7)) := rfl

theorem mayWrite_mkMask0_grid (r c : Fin 21) :
    mayWrite .mkMask0 (.grid r c) = (inRegion r c && (r.val + c.val) % 2 == 0) := rfl

/-- `MX.SEED` writes `GRID` and nothing else (R179). -/
theorem seedBody_eq (s : State) : seedBody s = { s with grid := (seedBody s).grid } := by
  simp only [seedBody, State.setGrid]

/-- A location outside a command's write set reads as before its body (R67). -/
theorem load_bodyOf (hrom : RomFixed s) (hraises : raises i s = 0) {l : Location} (h : mayWrite i l = false) :
    (bodyOf i s).load l = s.load l := by
  cases i with
  | rsEnc n e =>
    refine State.load_of_cw (rsBody_eq _ s) fun k hk => ?_
    subst hk
    obtain ⟨rfl, hn⟩ := rsEnc_operands hraises
    have hout : ¬ (n.toNat ≤ k.val ∧ k.val < n.toNat + 7 ∧ k.val < 26) := fun ⟨hle, hlt, _⟩ => by
      simp [mayWrite_rsEnc_cw, hn, hle, hlt] at h
    rw [bodyOf, bufGet_rsBody hrom, if_neg hout]
  | bsPack =>
    refine State.load_of_cw (packBody_eq s) fun k hk => ?_
    subst hk
    rw [bodyOf, bufGet_packBody, if_neg (of_decide_eq_false h)]
  | mxSeed =>
    refine State.load_of_grid (seedBody_eq s) fun r c hrc => ?_
    subst hrc
    cases h
  | mxPlace =>
    refine State.load_of_grid (placeBody_eq s) fun r c hrc => ?_
    subst hrc
    exact gridGet_placeBody_of_not_inRegion hrom h
  | mkMask0 =>
    refine State.load_of_grid (maskBody_eq s) fun r c hrc => ?_
    subst hrc
    rw [bodyOf, gridGet_maskBody, hrom, if_neg fun hm => ?_]
    obtain ⟨hin, heven⟩ := (isMasked_smaskRom r c).mp hm
    simp [mayWrite_mkMask0_grid, hin, heven] at h
  | fwWrite =>
    refine State.load_of_grid (formatBody_eq s) fun r c hrc => ?_
    subst hrc
    rw [bodyOf, formatBody_grid hrom]
    exact gridGet_formatGrid_of_not_isFormat _ _ h
  | run =>
    refine State.load_of_cw_grid (runBody_eq s) ?_ ?_
    · rintro k rfl
      cases h
    · rintro r c rfl
      cases h
  | _ =>
    refine State.load_setRes ?_
    rintro rfl
    cases h

/-- Every command leaves each location outside its write set as the host reads it (R67, R232). -/
theorem exec_load (hrom : RomFixed s) (hexec : exec i s = .next t) {l : Location} (h : mayWrite i l = false) :
    t.load l = s.load l := by
  obtain ⟨-, rfl⟩ | ⟨-, c, hc, rfl⟩ | ⟨-, hraises, rfl⟩ := exec_cases hexec
  · rfl
  · obtain ⟨hfault, hfcmd⟩ := mayWrite_fault_of_raises (hc ▸ c.code_ne_zero)
    refine State.load_raise ?_ ?_
    · rintro rfl
      exact Bool.false_ne_true (h.symm.trans hfault)
    · rintro rfl
      exact Bool.false_ne_true (h.symm.trans hfcmd)
  · exact load_bodyOf hrom hraises h

end Sys2Proof.Machine
end

section
/-! SUPPORT. Commands one after the other (70_reset_and_hazards.md R264, R265): bodies that commute, and placements and
seedings that forget what the grid held. -/

namespace Sys2Proof.Machine

open Sys2Proof.Ref

variable {i j : Instr} {s t : State}

/-! ## Two commands in either order -/

/-- The checks of R231 read the operands and `LEN` only. -/
theorem raises_congr (i : Instr) (h : t.len = s.len) : raises i t = raises i s := by
  cases i with
  | bsPack | run => rw [raises, raises, h]
  | _ => rfl

theorem bodyOf_len (i : Instr) (s : State) : (bodyOf i s).len = s.len := by
  rw [bodyOf_eq]

theorem bodyOf_fault (i : Instr) (s : State) : (bodyOf i s).fault = s.fault := by
  rw [bodyOf_eq]

/-- A command runs after another that raised no fault as its own checks say. -/
theorem exec_bodyOf (hf : s.fault = 0) (hj : raises j s = 0) :
    exec j (bodyOf i s) = .next (bodyOf j (bodyOf i s)) :=
  exec_of_raises_zero ((bodyOf_fault i s).trans hf) ((raises_congr j (bodyOf_len i s)).trans hj)

theorem thenExec_exec (hf : s.fault = 0) (hi : raises i s = 0) (hj : raises j s = 0) :
    thenExec (exec i s) j = .next (bodyOf j (bodyOf i s)) := by
  rw [exec_of_raises_zero hf hi]
  exact exec_bodyOf hf hj

/-- Commands commute where their bodies do. -/
theorem commute_of_bodyOf (hf : s.fault = 0) (hi : raises i s = 0) (hj : raises j s = 0)
    (hbody : bodyOf i (bodyOf j s) = bodyOf j (bodyOf i s)) :
    ∃ t u v, exec i s = .next t ∧ exec j t = .next u ∧ exec j s = .next v ∧ exec i v = .next u :=
  ⟨bodyOf i s, bodyOf j (bodyOf i s), bodyOf j s, exec_of_raises_zero hf hi, exec_bodyOf hf hj,
    exec_of_raises_zero hf hj, hbody ▸ exec_bodyOf hf hi⟩

/-! ## GF commands with the others -/

/-- A GF command writes to `RES` a value read from its operands and the ROMs (R106 to R111). -/
theorem bodyOf_of_isGf (h : isGf i = true) : ∃ f : Rom → Byte, ∀ s, bodyOf i s = s.setRes (f s.toRom) := by
  cases i with
  | gfAdd a b | gfSub a b => exact ⟨fun _ => a ^^^ b, fun _ => rfl⟩
  | gfMul a b => exact ⟨fun rom => gfMul rom a b, fun _ => rfl⟩
  | gfDiv a b => exact ⟨fun rom => tableQuotient rom a b, fun _ => rfl⟩
  | gfExp a => exact ⟨fun rom => tableGet rom.exp a.toNat, fun _ => rfl⟩
  | gfLog a => exact ⟨fun rom => tableGet rom.log a.toNat, fun _ => rfl⟩
  | _ => cases h

/-- No other command reads or writes `RES` (R67). -/
theorem bodyOf_setRes (h : isGf j = false) (s : State) (v : Byte) :
    bodyOf j (s.setRes v) = (bodyOf j s).setRes v := by
  cases j with
  | rsEnc | bsPack => simp only [bodyOf, rsBody, packBody, State.setRes, State.setCw]
  | mxSeed | mxPlace | mkMask0 | fwWrite =>
    simp only [bodyOf, seedBody, placeBody, maskBody, formatBody, State.setRes, State.setGrid]
  | run =>
    simp only [bodyOf, runBody, seedBody, placeBody, maskBody, formatBody, rsBody, packBody, State.setRes, State.setCw,
      State.setGrid]
  | _ => cases h

/-- A GF command's value depends on no state that another command writes. -/
theorem gf_commutes (hi : isGf i = true) (hj : isGf j = false) : bodyOf i (bodyOf j s) = bodyOf j (bodyOf i s) := by
  obtain ⟨f, hbody⟩ := bodyOf_of_isGf hi
  rw [hbody, hbody, bodyOf_setRes hj, bodyOf_toRom]

/-! ## Codeword commands with grid commands -/

/-- The packer and the encoder write `CW`; seeding, masking and the format writer do not read it (R67). -/
theorem cw_grid_commute (hi : i = .bsPack ∨ ∃ n e, i = .rsEnc n e) (hj : j = .mxSeed ∨ j = .mkMask0 ∨ j = .fwWrite) :
    bodyOf i (bodyOf j s) = bodyOf j (bodyOf i s) := by
  obtain rfl | ⟨n, e, rfl⟩ := hi <;> obtain rfl | rfl | rfl := hj <;>
    simp only [bodyOf, packBody, rsBody, seedBody, maskBody, formatBody, State.setCw, State.setGrid]

/-! ## The format writer with placement and masking -/

/-- The format modules are written alike whatever the grid. -/
theorem gridGet_formatGrid_congr (fmtw : BitVec 15) (g h : Grid) {r c : Nat} (hrc : isFormat r c = true) :
    gridGet (formatGrid fmtw g) r c = gridGet (formatGrid fmtw h) r c := by
  have hmem := isFormat_iff.mp hrc
  rw [← map_fst_formatWrites fmtw] at hmem
  obtain ⟨⟨p, v⟩, hw, rfl⟩ := List.mem_map.mp hmem
  rw [gridGet_formatGrid_of_mem hw, gridGet_formatGrid_of_mem hw]

/-- Writing the format modules commutes with a change of the grid that keeps them and looks at each module alone. -/
theorem formatGrid_comm (fmtw : BitVec 15) {change : Grid → Grid}
    (keeps : ∀ g r c, isFormat r c = true → gridGet (change g) r c = gridGet g r c)
    (alone : ∀ g h r c, gridGet g r c = gridGet h r c → gridGet (change g) r c = gridGet (change h) r c) (g : Grid) :
    change (formatGrid fmtw g) = formatGrid fmtw (change g) := by
  refine grid_ext fun r _ c _ => ?_
  cases hrc : isFormat r c with
  | true => rw [keeps _ _ _ hrc, gridGet_formatGrid_congr fmtw g (change g) hrc]
  | false =>
    rw [gridGet_formatGrid_of_not_isFormat _ _ hrc]
    exact alone _ _ _ _ (gridGet_formatGrid_of_not_isFormat _ _ hrc)

/-- Placement gives a region module its codeword bit and keeps the others, so it looks at each module alone. -/
theorem gridGet_placeBody_congr (hs : RomFixed s) (ht : RomFixed t) (hcw : s.cw = t.cw) {r c : Nat}
    (h : inRegion r c = false → gridGet s.grid r c = gridGet t.grid r c) :
    gridGet (placeBody s).grid r c = gridGet (placeBody t).grid r c := by
  cases hrc : inRegion r c with
  | true =>
    obtain ⟨k, hk, b, hb, hmodule⟩ := inRegion_iff_exists_moduleOf.mp hrc
    have hbit_s := gridGet_placeBody_moduleOf hs hk hb
    have hbit_t := gridGet_placeBody_moduleOf ht hk hb
    rw [hmodule] at hbit_s hbit_t
    rw [hbit_s, hbit_t, hcw]
  | false =>
    rw [gridGet_placeBody_of_not_inRegion hs hrc, gridGet_placeBody_of_not_inRegion ht hrc, h hrc]

theorem State.setGrid_setGrid (s : State) (g h : Grid) : (s.setGrid g).setGrid h = s.setGrid h := rfl

theorem placeBody_frame (s : State) : placeBody s = s.setGrid (placeBody s).grid :=
  (placeBody_eq s).trans (s.setGrid_eq _).symm

theorem maskBody_frame (s : State) : maskBody s = s.setGrid (maskBody s).grid :=
  (maskBody_eq s).trans (s.setGrid_eq _).symm

/-- Placement on grids that agree outside the encoding region (R181). -/
theorem placeBody_eq_of_agree (hs : RomFixed s) {g : Grid}
    (h : ∀ r c, inRegion r c = false → gridGet g r c = gridGet s.grid r c) : placeBody (s.setGrid g) = placeBody s := by
  have hgrid : (placeBody (s.setGrid g)).grid = (placeBody s).grid :=
    grid_ext fun r _ c _ => gridGet_placeBody_congr (s := s.setGrid g) hs hs rfl (h r c)
  rw [placeBody_frame (s.setGrid g), hgrid, State.setGrid_setGrid, ← placeBody_frame]

/-- Placement overwrites what masking or an earlier placement did (R264). -/
theorem placeBody_of_mxPlace_or_mkMask0 (hi : i = .mkMask0 ∨ i = .mxPlace) (hs : RomFixed s) :
    placeBody (bodyOf i s) = placeBody s := by
  obtain rfl | rfl := hi
  · exact (congrArg placeBody (maskBody_frame s)).trans
      (placeBody_eq_of_agree hs fun _ _ => gridGet_maskBody_of_not_inRegion hs)
  · exact (congrArg placeBody (placeBody_frame s)).trans
      (placeBody_eq_of_agree hs fun _ _ => gridGet_placeBody_of_not_inRegion hs)

/-- Seeding overwrites the whole grid (R179). -/
theorem seedBody_setGrid (s : State) (g : Grid) : seedBody (s.setGrid g) = seedBody s := rfl

/-- The format writer commutes with a body that writes the grid only, keeps the format modules and looks at each module
alone. -/
theorem format_commutes {body : State → State} (frame : ∀ s, body s = s.setGrid (body s).grid)
    (keeps : ∀ g r c, isFormat r c = true → gridGet (body (s.setGrid g)).grid r c = gridGet g r c)
    (alone : ∀ g h r c, gridGet g r c = gridGet h r c →
      gridGet (body (s.setGrid g)).grid r c = gridGet (body (s.setGrid h)).grid r c) :
    formatBody (body s) = body (formatBody s) := by
  have hgrid : (body (formatBody s)).grid = formatGrid s.fmtw (body s).grid := formatGrid_comm s.fmtw keeps alone s.grid
  calc formatBody (body s)
      = formatBody (s.setGrid (body s).grid) := congrArg formatBody (frame s)
    _ = (formatBody s).setGrid (body (formatBody s)).grid := by
      rw [hgrid, formatBody, formatBody, State.setGrid_grid, State.setGrid_toRom, State.setGrid_setGrid,
        State.setGrid_setGrid]
    _ = body (formatBody s) := (frame _).symm

theorem format_place_commute (hrom : RomFixed s) : formatBody (placeBody s) = placeBody (formatBody s) := by
  refine format_commutes placeBody_frame (fun g r c h => ?_) (fun g h r c e => ?_)
  · exact gridGet_placeBody_of_not_inRegion (s := s.setGrid g) hrom (inRegion_of_isFormat h)
  · exact gridGet_placeBody_congr (s := s.setGrid g) (t := s.setGrid h) hrom hrom rfl fun _ => e

theorem format_mask_commute (hrom : RomFixed s) : formatBody (maskBody s) = maskBody (formatBody s) := by
  refine format_commutes maskBody_frame (fun g r c h => ?_) (fun g h r c e => ?_)
  · exact gridGet_maskBody_of_not_inRegion (s := s.setGrid g) hrom (inRegion_of_isFormat h)
  · rw [gridGet_maskBody, gridGet_maskBody, State.setGrid_grid, State.setGrid_grid, e]
    rfl

/-! ## The listed pairs -/

/-- A GF command commutes with exactly the commands that are none (R265). -/
theorem commuting_of_isGf (h : isGf i = true) (j : Instr) : commuting i j = !isGf j := by
  cases i with
  | gfAdd | gfSub | gfMul | gfDiv | gfExp | gfLog => rfl
  | _ => cases h

/-- The pairs of R265, family by family. -/
theorem commuting_cases (h : commuting i j = true) :
    (isGf i = true ∧ isGf j = false) ∨
    ((i = .bsPack ∨ ∃ n e, i = .rsEnc n e) ∧ (j = .mxSeed ∨ j = .mkMask0 ∨ j = .fwWrite)) ∨
    (i = .fwWrite ∧ (j = .mxPlace ∨ j = .mkMask0)) := by
  cases hi : isGf i with
  | true =>
    rw [commuting_of_isGf hi, Bool.not_eq_true'] at h
    exact .inl ⟨rfl, h⟩
  | false =>
    refine .inr ?_
    cases i with
    | bsPack | rsEnc =>
      refine .inl ⟨by simp, ?_⟩
      cases j with
      | mxSeed => exact .inl rfl
      | mkMask0 => exact .inr (.inl rfl)
      | fwWrite => exact .inr (.inr rfl)
      | _ => cases h
    | fwWrite =>
      refine .inr ⟨rfl, ?_⟩
      cases j with
      | mxPlace => exact .inl rfl
      | mkMask0 => exact .inr rfl
      | _ => cases h
    | mxSeed | mxPlace | mkMask0 | run => cases j <;> cases h
    | _ => cases hi

end Sys2Proof.Machine
end

section
/-! PROOFS. The frame of the commands (20_memory.md R67, 43_matrix.md R178, 44_mask_format.md R208) and the hazards of
70_reset_and_hazards.md R264, R265. -/

namespace Sys2Proof.Machine

open Sys2Proof.Ref

/-- Settles O39: outside a command's write set each location loads as before; a command that faults writes the two fault
registers only. -/
theorem commandsWriteOnlyTheLocationsOfTheirRules : Obligations.CommandsWriteOnlyTheLocationsOfTheirRules := by
  unfold Obligations.CommandsWriteOnlyTheLocationsOfTheirRules
  intro i s t hrom h
  have heq := exec_eq h
  refine ⟨fun a size hframe => ?_, fun hfault => ?_, by rw [heq], by rw [heq], by rw [heq]⟩
  · rw [memRead, memRead]
    exact Option.bind_congr fun l hl => exec_load hrom h (hframe l hl)
  · obtain ⟨-, rfl⟩ | ⟨-, c, -, rfl⟩ | ⟨-, -, rfl⟩ := exec_cases h
    · exact absurd rfl hfault
    · rfl
    · exact absurd (bodyOf_fault i s) hfault

/-- Settles O42: the other commands that write the grid write the encoding region only. -/
theorem onlySeedFormatAndRunWriteStructuralModules : Obligations.OnlySeedFormatAndRunWriteStructuralModules := by
  unfold Obligations.OnlySeedFormatAndRunWriteStructuralModules
  intro i s t hseed hformat hrun hrom h r c hrc
  obtain ⟨-, rfl⟩ | ⟨-, _, -, rfl⟩ | ⟨-, -, rfl⟩ := exec_cases h
  · rfl
  · rfl
  · exact gridGet_bodyOf_of_not_inRegion hseed hformat hrun hrom hrc

/-- Settles O43: the format modules are structural, so a command keeps them or writes them afresh. -/
theorem formatWordSurvivesEveryCommandButSeed : Obligations.FormatWordSurvivesEveryCommandButSeed := by
  unfold Obligations.FormatWordSurvivesEveryCommandButSeed
  intro i s t hseed hrom hpath1 hpath2 hdark h
  obtain ⟨g, hg⟩ | hkeep := exec_formatModules hseed hrom h
  · rw [hg]
    exact ⟨readBack_formatGrid g (.inl rfl), readBack_formatGrid g (.inr rfl), gridGet_formatGrid_dark _ g⟩
  · exact ⟨(readBack_congr fun p hp => hkeep _ _ (isFormat_path (.inl rfl) hp)).trans hpath1,
      (readBack_congr fun p hp => hkeep _ _ (isFormat_path (.inr rfl) hp)).trans hpath2,
      (hkeep 13 8 (by decide)).trans hdark⟩

/-- Settles O44: the bodies of each listed pair commute, and neither changes what the other's checks read. -/
theorem independentCommandsCommute : Obligations.IndependentCommandsCommute := by
  unfold Obligations.IndependentCommandsCommute
  intro i j s hcomm hf hrom hi hj
  refine commute_of_bodyOf hf hi hj ?_
  obtain ⟨hgf, hother⟩ | ⟨hcw, hgrid⟩ | ⟨rfl, rfl | rfl⟩ := commuting_cases hcomm
  · exact gf_commutes hgf hother
  · exact cw_grid_commute hcw hgrid
  · exact format_place_commute hrom
  · exact format_mask_commute hrom

/-- Settles O45: placement forgets the region, and seeding the whole grid. -/
theorem placementOverwritesEarlierRegionWork : Obligations.PlacementOverwritesEarlierRegionWork := by
  unfold Obligations.PlacementOverwritesEarlierRegionWork
  intro s hf hrom
  refine ⟨⟨placeBody s, exec_of_raises_zero hf rfl, ?_, ?_⟩, ⟨seedBody s, exec_of_raises_zero hf rfl, fun i hi => ?_⟩⟩
  · rw [thenExec_exec hf rfl rfl]
    exact congrArg _ (placeBody_of_mxPlace_or_mkMask0 (.inl rfl) hrom)
  · rw [thenExec_exec hf rfl rfl]
    exact congrArg _ (placeBody_of_mxPlace_or_mkMask0 (.inr rfl) hrom)
  · have hgrid : bodyOf i s = s.setGrid (bodyOf i s).grid ∧ raises i s = 0 := by
      simp only [List.mem_cons, List.not_mem_nil, or_false] at hi
      obtain rfl | rfl | rfl := hi
      · exact ⟨placeBody_frame s, rfl⟩
      · exact ⟨maskBody_frame s, rfl⟩
      · exact ⟨formatBody_eq s, rfl⟩
    obtain ⟨hframe, hraises⟩ := hgrid
    rw [thenExec_exec hf hraises rfl, bodyOf, hframe, seedBody_setGrid]

end Sys2Proof.Machine
end

section
/-! SUPPORT. `RUN` (45_pipeline.md R220 to R222): the codewords are a function of the length and the input bytes, and the
grid is a function of the codewords. -/

namespace Sys2Proof.Machine

open Sys2Proof.Ref

variable {s t : State}

/-! ## The packed bytes depend on the input bytes only -/

theorem packSource_congr (len : Byte) {S T : Nat → Byte} {n : Nat} (h : ∀ i < n, S i = T i) :
    ∀ {i : Nat}, i ≤ n + 1 → packSource len S i = packSource len T i
  | 0, _ => rfl
  | 1, _ => rfl
  | i + 2, hi => h i (Nat.le_of_succ_le_succ hi)

theorem packedByte_congr (len : Byte) {S T : Nat → Byte} (h : ∀ i < len.toNat, S i = T i) (i : Nat) :
    packedByte len S i = packedByte len T i := by
  rw [packedByte_eq, packedByte_eq]
  by_cases hdata : i ≤ len.toNat
  · rw [if_pos hdata, if_pos hdata, packSource_congr len h (Nat.le_succ_of_le hdata),
      packSource_congr len h (Nat.succ_le_succ hdata)]
  · rw [if_neg hdata, if_neg hdata]
    by_cases hend : i = len.toNat + 1
    · rw [if_pos hend, if_pos hend, packSource_congr len h hend.le]
    · rw [if_neg hend, if_neg hend]

/-! ## The codeword stages -/

/-- The first three stages of `RUN`: seed, pack, encode (R220). -/
def codedBody (s : State) : State := rsBody Config.nData (packBody (seedBody s))

theorem runBody_eq_stages (s : State) : runBody s = formatBody (maskBody (placeBody (codedBody s))) := rfl

theorem codedBody_eq (s : State) : codedBody s = { s with cw := (codedBody s).cw, grid := seedGrid } := by
  simp only [codedBody, rsBody, packBody, seedBody, State.setCw, State.setGrid]

theorem RomFixed.codedBody (hrom : RomFixed s) : RomFixed (codedBody s) := by
  rw [codedBody_eq]
  exact hrom

theorem RomFixed.placedBody (hrom : RomFixed s) : RomFixed (placeBody (Machine.codedBody s)) :=
  hrom.codedBody.bodyOf .mxPlace

theorem RomFixed.maskedBody (hrom : RomFixed s) : RomFixed (maskBody (placeBody (Machine.codedBody s))) :=
  hrom.placedBody.bodyOf .mkMask0

theorem runBody_cw (s : State) : (runBody s).cw = (codedBody s).cw := by
  rw [runBody_eq_stages, formatBody_eq, maskBody_eq, placeBody_eq]

theorem bufGet_codedBody (hrom : RomFixed s) (k : Nat) : bufGet (codedBody s).cw k
    = if 19 ≤ k ∧ k < 19 + 7 ∧ k < 26 then (rsEc (cwList (packBody (seedBody s)) 19)).getD (k - 19) 0
      else bufGet (packBody (seedBody s)).cw k :=
  bufGet_rsBody ((hrom.bodyOf .mxSeed).bodyOf .bsPack) 19 k

theorem bufGet_codedBody_of_lt (hrom : RomFixed s) {k : Nat} (hk : k < 19) :
    bufGet (codedBody s).cw k = bufGet (packBody (seedBody s)).cw k := by
  rw [bufGet_codedBody hrom, if_neg fun h => h.1.not_gt hk]

/-- The data codewords are the packed input. -/
theorem bufGet_codedBody_data (hrom : RomFixed s) (hfits : s.len.toNat ≤ 17) {k : Nat} (hk : k < 19) :
    bufGet (codedBody s).cw k = packedByte s.len (bufGet s.ibuf) k := by
  rw [bufGet_codedBody_of_lt hrom hk, bufGet_packBody, if_pos hk]
  exact bufGet_pack_eq_packedByte _ _ hfits hk

/-- The error-correction codewords are the remainder of the data codewords. -/
theorem bufGet_codedBody_ec (hrom : RomFixed s) {j : Nat} (hj : j < 7) :
    bufGet (codedBody s).cw (19 + j) = (rsEc (cwList (codedBody s) 19)).getD j 0 := by
  have hec : 19 ≤ 19 + j ∧ 19 + j < 19 + 7 ∧ 19 + j < 26 := by omega
  have hdata : cwList (codedBody s) 19 = cwList (packBody (seedBody s)) 19 :=
    List.map_congr_left fun k hk => bufGet_codedBody_of_lt hrom (List.mem_range.mp hk)
  rw [bufGet_codedBody hrom, if_pos hec, Nat.add_sub_cancel_left, hdata]

/-- The codewords are determined by the length and the input bytes below it (R222, R267). -/
theorem codedBody_cw_congr (hs : RomFixed s) (ht : RomFixed t) (hlen : s.len = t.len) (hfits : s.len.toNat ≤ 17)
    (hibuf : ∀ i < s.len.toNat, bufGet s.ibuf i = bufGet t.ibuf i) : (codedBody s).cw = (codedBody t).cw := by
  have hdata : ∀ k < 19, bufGet (codedBody s).cw k = bufGet (codedBody t).cw k := fun k hk => by
    rw [bufGet_codedBody_data hs hfits hk, bufGet_codedBody_data ht (hlen ▸ hfits) hk, ← hlen,
      packedByte_congr s.len hibuf]
  refine buf_ext fun k hk => ?_
  by_cases hk19 : k < 19
  · exact hdata k hk19
  · obtain ⟨j, rfl⟩ := Nat.exists_eq_add_of_le (Nat.le_of_not_lt hk19)
    have hlist : cwList (codedBody s) 19 = cwList (codedBody t) 19 :=
      List.map_congr_left fun k hk => hdata k (List.mem_range.mp hk)
    rw [bufGet_codedBody_ec hs (by omega), bufGet_codedBody_ec ht (by omega), hlist]

/-! ## The grid stages -/

/-- The symbol of a row of codewords: seeded, placed, masked and given its format (R220). -/
def symbolOf (rom : Rom) (cw : Vector Byte 26) : Grid :=
  formatGrid rom.fmtw (allModules.foldl (maskModule rom.smask) (place rom.smask cw seedGrid))

theorem runBody_grid (s : State) : (runBody s).grid = symbolOf s.toRom (runBody s).cw := by
  rw [runBody_cw, runBody_eq_stages, codedBody_eq]
  simp only [formatBody, maskBody, placeBody, State.setGrid, symbolOf]

/-- Placement and masking keep the seeded structural modules; the format modules aside, `RUN` leaves them so. -/
theorem gridGet_runBody_of_not_isFormat (hrom : RomFixed s) {r c : Nat} (h : isFormat r c = false) :
    gridGet (runBody s).grid r c = gridGet (maskBody (placeBody (codedBody s))).grid r c := by
  rw [runBody_eq_stages, formatBody_grid hrom.maskedBody]
  exact gridGet_formatGrid_of_not_isFormat _ _ h

theorem isFormat_of_inRegion {r c : Nat} (h : inRegion r c = true) : isFormat r c = false := by
  cases hformat : isFormat r c with
  | true => exact absurd (h.symm.trans (inRegion_of_isFormat hformat)) Bool.noConfusion
  | false => rfl

/-- A masked region module is the placed one under the mask (R201). -/
theorem gridGet_maskBody_of_inRegion (hrom : RomFixed s) {r c : Nat} (h : inRegion r c = true) :
    gridGet (maskBody s).grid r c = gridGet s.grid r c ^^^ maskBit r c := by
  rw [gridGet_maskBody, hrom, maskBit]
  by_cases heven : (r + c) % 2 = 0
  · rw [if_pos ((isMasked_smaskRom r c).mpr ⟨h, heven⟩), if_pos heven]
  · rw [if_neg fun hm => heven ((isMasked_smaskRom r c).mp hm).2, if_neg heven]
    exact BitVec.xor_zero.symm

/-- A region module of the symbol is its codeword bit under the mask (R181, R201). -/
theorem gridGet_runBody_moduleOf (hrom : RomFixed s) {k b : Nat} (hk : k < 26) (hb : b < 8) :
    gridGet (runBody s).grid (moduleOf k b).1 (moduleOf k b).2
      = (bufGet (runBody s).cw k).extractLsb' b 1 ^^^ maskBit (moduleOf k b).1 (moduleOf k b).2 := by
  have hin := inRegion_moduleOf k hk b hb
  rw [gridGet_runBody_of_not_isFormat hrom (isFormat_of_inRegion hin),
    gridGet_maskBody_of_inRegion hrom.placedBody hin, gridGet_placeBody_moduleOf hrom.codedBody hk hb,
    runBody_cw]

/-- A structural module of the symbol, the format modules aside, is as `MX.SEED` draws it (R178, R220). -/
theorem gridGet_runBody_structural (hrom : RomFixed s) {r c : Nat} (hr : r < 21) (hc : c < 21)
    (hin : inRegion r c = false) (hformat : isFormat r c = false) :
    gridGet (runBody s).grid r c = seededModule r c := by
  rw [gridGet_runBody_of_not_isFormat hrom hformat,
    gridGet_maskBody_of_not_inRegion hrom.placedBody hin,
    gridGet_placeBody_of_not_inRegion hrom.codedBody hin, codedBody_eq]
  exact gridGet_seedGrid r hr c hc

/-! ## Two runs -/

/-- Equal inputs give equal codewords and equal symbols, whatever else differs (R222). -/
theorem runBody_congr (hs : RomFixed s) (ht : RomFixed t) (hlen : s.len = t.len) (hfits : s.len.toNat ≤ 17)
    (hibuf : ∀ i < s.len.toNat, bufGet s.ibuf i = bufGet t.ibuf i) :
    (runBody s).cw = (runBody t).cw ∧ (runBody s).grid = (runBody t).grid := by
  have hcw : (runBody s).cw = (runBody t).cw := by
    rw [runBody_cw, runBody_cw, codedBody_cw_congr hs ht hlen hfits hibuf]
  exact ⟨hcw, by rw [runBody_grid, runBody_grid, hs, ht, hcw]⟩

/-- `RUN` reads nothing it writes, so a second run changes nothing. -/
theorem runBody_runBody (hrom : RomFixed s) (hfits : s.len.toNat ≤ 17) : runBody (runBody s) = runBody s := by
  have hlen : s.len = (runBody s).len := by rw [runBody_eq]
  have hibuf : s.ibuf = (runBody s).ibuf := by rw [runBody_eq]
  have hrom' : RomFixed (runBody s) := hrom.bodyOf .run
  obtain ⟨hcw, hgrid⟩ := runBody_congr hrom hrom' hlen hfits (fun i _ => by rw [← hibuf])
  rw [runBody_eq (runBody s), ← hcw, ← hgrid]

/-! ## Commands in turn -/

/-- Commands whose checks pass have their effects in turn. -/
theorem foldl_thenExec {is : List Instr} (hf : s.fault = 0) (h : ∀ i ∈ is, raises i s = 0) :
    is.foldl thenExec (.next s) = .next (is.foldl (fun s i => bodyOf i s) s) := by
  induction is generalizing s with
  | nil => rfl
  | cons i is ih =>
    have hi : thenExec (.next s) i = .next (bodyOf i s) := exec_of_raises_zero hf (h i List.mem_cons_self)
    rw [List.foldl_cons, hi, List.foldl_cons, ih ((bodyOf_fault i s).trans hf)]
    exact fun j hj => (raises_congr j (bodyOf_len i s)).trans (h j (List.mem_cons_of_mem i hj))

/-- On a faulted unit commands in turn do nothing (R233). -/
theorem foldl_thenExec_of_faulted (hf : s.fault ≠ 0) (is : List Instr) : is.foldl thenExec (.next s) = .next s :=
  List.foldl_fixed' (fun i => exec_refused hf i) is

theorem raises_run_of_fits (hfits : s.len.toNat ≤ 17) : raises .run s = 0 := if_neg hfits.not_gt

/-- `RUN` on an input that fits (R220). -/
theorem exec_run_of_fits (hf : s.fault = 0) (hfits : s.len.toNat ≤ 17) : exec .run s = .next (runBody s) :=
  exec_of_raises_zero hf (raises_run_of_fits hfits)

/-- `RUN` on an input that does not fit (R220). -/
theorem exec_run_of_long (hf : s.fault = 0) (hlong : s.len.toNat > 17) :
    exec .run s = .next { s with fault := 7, fcmd := 0x60000000 } :=
  exec_of_raises_eq hf (if_pos hlong) (by decide)

end Sys2Proof.Machine
end

section
/-! PROOFS. The statements of 45_pipeline.md. -/

namespace Sys2Proof.Machine

open Sys2Proof.Ref

/-- Settles O35: the codewords are packed and encoded, and each module is written last by the format writer, by placement
and masking, or by seeding. -/
theorem runProducesTheSymbolOfTheInput : Obligations.RunProducesTheSymbolOfTheInput := by
  unfold Obligations.RunProducesTheSymbolOfTheInput
  refine ⟨decodesAs_row .run, fun s hf hlong => exec_run_of_long hf hlong, fun s hf hrom hfits => ?_⟩
  obtain ⟨g, hg⟩ := bodyOf_grid_eq_formatGrid (i := .run) (.inr rfl) hrom
  rw [bodyOf] at hg
  refine ⟨runBody s, exec_run_of_fits hf hfits, runBody_eq s, fun k hk => ?_, fun j hj => ?_,
    fun k hk b hb => gridGet_runBody_moduleOf hrom hk hb, ?_, ?_, ?_,
    fun r hr c hc hin hformat => gridGet_runBody_structural hrom hr hc hin hformat⟩
  · rw [runBody_cw, bufGet_codedBody_data hrom hfits hk]
  · rw [cwList, runBody_cw]
    exact bufGet_codedBody_ec hrom hj
  · rw [hg, readBack_formatGrid g (.inl rfl)]
  · rw [hg, readBack_formatGrid g (.inr rfl)]
  · rw [hg, gridGet_formatGrid_dark]

/-- Settles O36: with the input within the capacity all six commands pass their checks, and `RUN` is their bodies in turn;
past it `BS.PACK` faults and the later commands are refused. -/
theorem runEqualsTheSixCommands : Obligations.RunEqualsTheSixCommands := by
  unfold Obligations.RunEqualsTheSixCommands
  intro s hf
  have hseed : exec .mxSeed s = .next (seedBody s) := exec_of_raises_zero hf rfl
  have hlive : (seedBody s).fault = 0 := (bodyOf_fault .mxSeed s).trans hf
  have hraises (i : Instr) : raises i (seedBody s) = raises i s := raises_congr i (bodyOf_len .mxSeed s)
  refine ⟨fun hfits => ⟨⟨_, exec_run_of_fits hf hfits⟩, ?_⟩,
    fun hlong => ⟨exec_run_of_long hf hlong, seedGrid, hseed, ?_⟩⟩
  · have hchecks : ∀ i ∈ [Instr.bsPack, .rsEnc 19 7, .mxPlace, .mkMask0, .fwWrite], raises i (seedBody s) = 0 := by
      intro i hi
      rw [hraises]
      simp only [List.mem_cons, List.not_mem_nil, or_false] at hi
      obtain rfl | rfl | rfl | rfl | rfl := hi
      · exact if_neg hfits.not_gt
      all_goals rfl
    rw [hseed, foldl_thenExec hlive hchecks, exec_run_of_fits hf hfits]
    exact congrArg _ (bodyOf_run s)
  · have hpack : thenExec (.next (seedBody s)) .bsPack
        = .next { seedBody s with fault := 7, fcmd := 0x30000000 } :=
      exec_of_raises_eq hlive ((hraises .bsPack).trans (if_pos hlong)) (by decide)
    have hfaulted : (7 : BitVec 4) ≠ 0 := by decide
    rw [hseed, List.foldl_cons, hpack, foldl_thenExec_of_faulted hfaulted, seedBody, State.setGrid]

/-- Settles O37: what `RUN` writes depends on `LEN` and the input bytes below it. -/
theorem runDependsOnlyOnTheInput : Obligations.RunDependsOnlyOnTheInput := by
  unfold Obligations.RunDependsOnlyOnTheInput
  intro s₁ s₂ hf₁ hf₂ hrom₁ hrom₂ hlen hfits hibuf
  obtain ⟨hcw, hgrid⟩ := runBody_congr hrom₁ hrom₂ hlen hfits hibuf
  exact ⟨_, _, exec_run_of_fits hf₁ hfits, exec_run_of_fits hf₂ (hlen ▸ hfits), hgrid, hcw⟩

/-- Settles O38: a refused or faulting `RUN` leaves a faulted unit, which refuses the second; a completed one is repeated
on the same input. -/
theorem runTwiceIsRunOnce : Obligations.RunTwiceIsRunOnce := by
  unfold Obligations.RunTwiceIsRunOnce
  intro s t hrom h
  obtain ⟨-, rfl⟩ | ⟨-, c, -, rfl⟩ | ⟨hf, hraises, rfl⟩ := exec_cases h
  · exact h
  · exact exec_refused c.code_ne_zero _
  · have hfits : s.len.toNat ≤ 17 :=
      Nat.le_of_not_gt fun hlong => absurd ((if_pos hlong).symm.trans hraises) (by decide)
    rw [exec_bodyOf hf hraises]
    exact congrArg _ (runBody_runBody hrom hfits)

end Sys2Proof.Machine
end

section
/-! SUPPORT. Storage locations as the host sees them (20_memory.md R55, R63), and a string loaded access by access
(30_encoding.md R87). -/

namespace Sys2Proof.Machine

variable {s t : State}

/-! ## Reads after a store -/

/-- A store leaves the host's pending events. -/
theorem State.store_inputs {v : Word} {l : Location} (h : s.store v l = some t) : t.inputs = s.inputs := by
  cases l with
  | len | ibuf | cw | grid =>
    cases h
    rfl
  | _ => cases h

/-- A store changes no other location. -/
theorem State.load_store_ne {v : Word} {l l' : Location} (h : s.store v l = some t) (hne : l' ≠ l) :
    t.load l' = s.load l' := by
  cases l with
  | len =>
    cases h
    cases l' with
    | len => exact absurd rfl hne
    | _ => rfl
  | ibuf i =>
    cases h
    cases l' with
    | ibuf j =>
      have hij : i.val ≠ j.val := fun e => hne (congrArg Location.ibuf (Fin.ext e.symm))
      rw [State.load, State.setIbuf_ibuf, bufGet_bufPut_ne _ _ hij, State.load]
    | _ => rfl
  | cw i =>
    cases h
    cases l' with
    | cw j =>
      have hij : i.val ≠ j.val := fun e => hne (congrArg Location.cw (Fin.ext e.symm))
      rw [State.load, State.setCw_cw, bufGet_bufPut_ne _ _ hij, State.load]
    | _ => rfl
  | grid r c =>
    cases h
    cases l' with
    | grid r' c' =>
      have hrc : (r'.val, c'.val) ≠ (r.val, c.val) := fun e => by
        obtain ⟨hr, hc⟩ := Prod.ext_iff.mp e
        exact hne (by rw [Fin.ext hr, Fin.ext hc])
      rw [State.load, State.setGrid_grid, gridGet_gridPut_ne _ _ hrc, State.load]
    | _ => rfl
  | _ => cases h

/-! ## A run of host writes -/

/-- A run whose first step completes goes on from there. -/
theorem run_succ_of_step {k : Nat} (h : step s = .next t) : Host.Core.run core (k + 1) s = Host.Core.run core k t := by
  have hcore : core.step s = .next t := h
  simp only [Host.Core.run, hcore]

/-- The writes of a string's bytes and of its length, served one a step (R87). -/
theorem run_ibufWrites (ps : List (Fin 17 × Byte)) (v : Word) (rest : List HostEvent)
    (h : s.inputs = ps.map (fun p => ibufWrite p.1 p.2) ++ writeEvent Location.len.addr v :: rest) :
    Host.Core.run core (ps.length + 1) s = .next { Ref.served s rest with
      len := v.setWidth 8, ibuf := ps.foldl (fun b p => bufPut b p.1 p.2) s.ibuf } := by
  induction ps generalizing s with
  | nil =>
    have hstep : step s = .next { Ref.served s rest with len := v.setWidth 8 } := step_write_of_store .len rfl h rfl
    exact run_succ_of_step hstep
  | cons p ps ih =>
    have hbyte : (p.2.setWidth 32).setWidth 8 = p.2 := by simp
    have hstep : step s = .next { Ref.served s (ps.map (fun p => ibufWrite p.1 p.2)
        ++ writeEvent Location.len.addr v :: rest) with ibuf := bufPut s.ibuf p.1 p.2 } := by
      rw [step_write_of_store (.ibuf p.1) rfl h rfl, hbyte]
      rfl
    rw [List.length_cons, run_succ_of_step hstep, ih rfl]
    rfl

/-- The writes of `LOADSTR` fill the buffer from its first entry (R87). -/
theorem foldl_zip_finRange (str : List Byte) (v : Vector Byte 17) :
    ((List.finRange 17).zip str).foldl (fun b p => bufPut b p.1 p.2) v
      = (List.range (min 17 str.length)).foldl (fun b k => bufPut b (0 + k) (str.getD k 0)) v := by
  have hmap : ((List.finRange 17).zip str).map (fun p => (p.1.val, p.2))
      = (List.range (min 17 str.length)).map fun k => (0 + k, str.getD k 0) := by
    apply List.ext_getElem
    · simp
    · intro k hk _
      have hstr : k < 17 ∧ k < str.length := by simpa using hk
      simp [hstr.2]
  have hfold := congrArg (List.foldl (fun b (p : Nat × Byte) => bufPut b p.1 p.2) v) hmap
  rwa [List.foldl_map, List.foldl_map] at hfold

/-- What `LOADSTR` leaves in each entry of `IBUF` (R87). -/
theorem bufGet_foldl_zip_finRange (str : List Byte) (v : Vector Byte 17) {i : Nat} (hi : i < 17) :
    bufGet (((List.finRange 17).zip str).foldl (fun b p => bufPut b p.1 p.2) v) i
      = if h : i < str.length then str[i] else bufGet v i := by
  rw [foldl_zip_finRange, bufGet_fill]
  by_cases h : i < str.length
  · rw [if_pos (by omega), dif_pos h, Nat.sub_zero, List.getD_eq_getElem _ _ h]
  · rw [if_neg (by omega), dif_neg h]

/-- `LOADSTR` stands for its accesses when the string has at most 255 bytes, and is refused otherwise (R87). -/
theorem events_loadStr {str : List Byte} {es : List HostEvent} (h : (ScriptStatement.loadStr str).events = some es) :
    str.length ≤ 255 ∧ es = loadStrEvents str := by
  rw [ScriptStatement.events, Option.ite_none_right_eq_some, Option.some_inj] at h
  exact ⟨h.1, h.2.symm⟩

theorem length_loadStrEvents (str : List Byte) :
    (loadStrEvents str).length = ((List.finRange 17).zip str).length + 1 := by
  rw [loadStrEvents, List.length_append, List.length_map, List.length_singleton]

end Sys2Proof.Machine
end

section
/-! PROOFS. Read after write (20_memory.md R63) and `LOADSTR` (30_encoding.md R87). -/

namespace Sys2Proof.Machine

/-- Settles O14: the write is a store, after which its own location holds the kept bits and every other one loads as
before. -/
theorem readAfterWriteReturnsTheWrittenValue : Obligations.ReadAfterWriteReturnsTheWrittenValue := by
  unfold Obligations.ReadAfterWriteReturnsTheWrittenValue
  intro s l v t hl l' rest hinputs hstep
  have hstores : l.acceptsWrite = true ∧ l ≠ .cmd := by
    obtain rfl | ⟨i, rfl⟩ | ⟨k, rfl⟩ | ⟨r, c, rfl⟩ := hl <;> exact ⟨rfl, nofun⟩
  obtain ⟨u, hu⟩ := Option.isSome_iff_exists.mp
    (State.store_isSome (s := s.take (.read l'.addr 4 :: rest)) (v := v).mpr hstores)
  obtain rfl : u = t := by
    rw [step_of_inputs hinputs, serve_write_of_store hu] at hstep
    cases hstep
    rfl
  have hnext : u.inputs = .read l'.addr 4 :: rest := State.store_inputs hu
  refine ⟨?_, fun hne w hw => ?_⟩
  · rintro rfl
    obtain rfl | ⟨i, rfl⟩ | ⟨k, rfl⟩ | ⟨r, c, rfl⟩ := hl <;> cases hu
    · exact readsAs_of_load .len rfl rfl rest hnext
    · exact readsAs_of_load (.ibuf i) rfl (by rw [State.load, State.setIbuf_ibuf, bufGet_bufPut_same _ _ i.isLt]) rest
        hnext
    · exact readsAs_of_load (.cw k) rfl (by rw [State.load, State.setCw_cw, bufGet_bufPut_same _ _ k.isLt]) rest hnext
    · exact readsAs_of_load (.grid r c) rfl
        (by rw [State.load, State.setGrid_grid, gridGet_gridPut_same _ _ r.isLt c.isLt]) rest hnext
  · refine readsAs_of_load l' rfl ?_ rest hnext
    rw [State.load_store_ne hu hne, State.load_take, hw]

/-- Settles O46: the accesses are one write a byte, which fill the buffer from its first entry, and the length's. -/
theorem loadStringFillsTheInputBuffer : Obligations.LoadStringFillsTheInputBuffer := by
  unfold Obligations.LoadStringFillsTheInputBuffer
  intro s str es rest hes hinputs
  obtain ⟨hlen, rfl⟩ := events_loadStr hes
  rw [length_loadStrEvents]
  rw [loadStrEvents, List.append_assoc] at hinputs
  refine ⟨_, run_ibufWrites _ _ rest hinputs, rfl, ?_, fun i hi => bufGet_foldl_zip_finRange str s.ibuf hi⟩
  simp only [BitVec.toNat_setWidth, BitVec.toNat_ofNat]
  omega

end Sys2Proof.Machine
end
